-- ==== Sys2Proof/Word.lean ====
section
/-!
DEFINITION. The widths the spec names (00_scope.md R8, R9): the 64-bit word of every register, the 8-bit byte, the
32-bit native output, the 128-bit value of PCG64.
-/

namespace Sys2Proof

/-- A 64-bit word: every register, operand, result and most state words (R8). -/
abbrev Word := BitVec 64

/-- One byte of a register (R96). -/
abbrev Byte := BitVec 8

/-- A native 32-bit value: PCG32 outputs and MT19937 words (R58, R302). -/
abbrev Word32 := BitVec 32

/-- A 128-bit value: the PCG64 state, increment and delta (R57). -/
abbrev Word128 := BitVec 128

end Sys2Proof
end

