-- ==== Sys2Proof/Config.lean ====
section
/-!
DEFINITION. What is fixed when the block is built: the variants, the packing choice RAW64_PACK, the window's size, and
the values the spec leaves OPEN (00_scope.md R8). The OPEN values have no body: no proof can see what they are, and a
statement that uses one holds for every choice.
-/

namespace Sys2Proof

/-- The 23 generator variants (30_encoding.md R131). -/
inductive Variant where
  | splitmix64
  | xoroshiro128p | xoroshiro128pp | xoroshiro128ss
  | xoshiro256p | xoshiro256pp | xoshiro256ss
  | xoshiro512p | xoshiro512pp | xoshiro512ss
  | xoroshiro1024s | xoroshiro1024pp | xoroshiro1024ss
  | pcg32 | pcg64
  | mt19937 | mt19937w64
  | sfc64 | jsf64
  | mwc128 | mwc192 | mwc256 | gmwc128
deriving DecidableEq, Repr

/-- How NEXT packs two native 32-bit outputs (R172, R8 RAW64_PACK). -/
inductive Raw64Pack where
  | lowFirst
  | highFirst
deriving DecidableEq, Repr

/-- The parameters of R8 that are wired into the block and that no step changes. `State` carries them, so that a
statement about every state holds for every value of them. NINST is the length of the state's list of instances. -/
structure Params where
  /-- BLOCK_BASE, the host address of the register window (R90). -/
  blockBase : Nat
  /-- RAW64_PACK (R172). -/
  raw64Pack : Raw64Pack
deriving DecidableEq, Repr

namespace Config

/-- OPND_DEPTH (R8, R31). -/
def opndDepth : Nat := 1024

/-- The size of the register window in bytes (R90). -/
def windowSize : Nat := 0x4000

/-- NINST at most (R8). -/
def maxInsts : Nat := 16

/-- FREE VALUE (R72, U12; log entry 9). `entropy n` is the word the entropy port answers to the n-th request. It has
no body: any 64-bit value, 0 included. -/
opaque entropy : Nat → Word

/-- FREE VALUE (R31, R80, U1; log entry 3). `opndByte n a` is what the byte at window offset `a` of the operand registers
holds after the n-th reset, until the host writes it. It has no body: the contents of OPND after reset are unspecified. -/
opaque opndByte : Nat → Nat → Byte

/-- OPEN PARAMETER (R8, R312, U13; log entry 8): the step count of JUMP on PCG32. -/
opaque pcg32JumpDelta : Word

/-- OPEN PARAMETER (R8, R312, U13; log entry 8): the step count of LONG_JUMP on PCG32. -/
opaque pcg32LongJumpDelta : Word

/-- OPEN PARAMETER (R8, R312, U13; log entry 8): the step count of JUMP on PCG64. -/
opaque pcg64JumpDelta : Word128

/-- OPEN PARAMETER (R8, R312, U13; log entry 8): the step count of LONG_JUMP on PCG64. -/
opaque pcg64LongJumpDelta : Word128

end Config

end Sys2Proof
end

