-- ==== Sys2Proof/Syntax.lean ====
section
/-!
DEFINITION. The commands as syntax: one constructor per row of spec/opcode_table.json, carrying the fields the row uses
(30_encoding.md R123). The fields are the raw bits of the command word (R121): a variant code or an INST that the block
refuses is an instruction too, and its meaning refuses it (60_exceptions.md R490).
-/

namespace Sys2Proof

/-- The fourteen commands (R130). `var` is VAR, `zok` is ZOK, `lok` is LOK, `cnt` is CNT, `inst` is INST, `dst` is DST. -/
inductive Instr where
  /-- NOP, OP = 0x00 (R181). -/
  | nop
  /-- SEED, OP = 0x01 (R161). -/
  | seed (var : BitVec 6) (zok lok : Bool) (cnt : BitVec 10) (inst : BitVec 4)
  /-- SEED_BYTES, OP = 0x02 (R167). -/
  | seedBytes (var : BitVec 6) (zok lok : Bool) (cnt : BitVec 10) (inst : BitVec 4)
  /-- SEED_KEY, OP = 0x03 (R168). -/
  | seedKey (var : BitVec 6) (zok : Bool) (cnt : BitVec 10) (inst : BitVec 4)
  /-- SEED_ENTROPY, OP = 0x04 (R169). -/
  | seedEntropy (var : BitVec 6) (inst : BitVec 4)
  /-- NEXT, OP = 0x08 (R171). -/
  | next (inst : BitVec 4)
  /-- NEXT32, OP = 0x09 (R173). -/
  | next32 (inst : BitVec 4)
  /-- JUMP, OP = 0x10 (R174). -/
  | jump (inst : BitVec 4)
  /-- LONG_JUMP, OP = 0x11 (R175). -/
  | longJump (inst : BitVec 4)
  /-- ADVANCE, OP = 0x12 (R176). -/
  | advance (inst : BitVec 4)
  /-- CLONE, OP = 0x18 (R177): `inst` is the source, `dst` the destination. -/
  | clone (inst dst : BitVec 4)
  /-- STATE_READ, OP = 0x1C (R178). -/
  | stateRead (inst : BitVec 4)
  /-- STATE_WRITE, OP = 0x1D (R179). -/
  | stateWrite (inst : BitVec 4)
  /-- QUERY, OP = 0x1E (R180). -/
  | query (inst : BitVec 4)
deriving DecidableEq, Repr

end Sys2Proof
end

