-- ==== Sys2Proof/Decode.lean ====
section
/-!
DEFINITION. The variant codes (30_encoding.md R131), the decoder of a command word (R120 to R123, checks 1 to 3 of
60_exceptions.md R490), total and rejecting by name, and the encoder.
-/

namespace Sys2Proof

/-- The 6-bit code of a variant (R131). -/
def variantCode : Variant → BitVec 6
  | .splitmix64 => 0x01
  | .xoroshiro128p => 0x02
  | .xoroshiro128pp => 0x03
  | .xoroshiro128ss => 0x04
  | .xoshiro256p => 0x05
  | .xoshiro256pp => 0x06
  | .xoshiro256ss => 0x07
  | .xoshiro512p => 0x08
  | .xoshiro512pp => 0x09
  | .xoshiro512ss => 0x0A
  | .xoroshiro1024s => 0x0B
  | .xoroshiro1024pp => 0x0C
  | .xoroshiro1024ss => 0x0D
  | .pcg32 => 0x10
  | .pcg64 => 0x11
  | .mt19937 => 0x18
  | .mt19937w64 => 0x19
  | .sfc64 => 0x20
  | .jsf64 => 0x21
  | .mwc128 => 0x28
  | .mwc192 => 0x29
  | .mwc256 => 0x2A
  | .gmwc128 => 0x2B

/-- Every variant, in the order of R131. -/
def allVariants : List Variant :=
  [.splitmix64, .xoroshiro128p, .xoroshiro128pp, .xoroshiro128ss, .xoshiro256p, .xoshiro256pp, .xoshiro256ss,
   .xoshiro512p, .xoshiro512pp, .xoshiro512ss, .xoroshiro1024s, .xoroshiro1024pp, .xoroshiro1024ss, .pcg32, .pcg64,
   .mt19937, .mt19937w64, .sfc64, .jsf64, .mwc128, .mwc192, .mwc256, .gmwc128]

/-- The variant a VAR field names; `none` for a reserved code (R131, R133). -/
def variantOfCode? (code : BitVec 6) : Option Variant :=
  allVariants.find? fun v => decide (variantCode v = code)

/-- Why a word is no command: checks 1 to 3 of R490. Each makes the block report IllegalCommand (R486). -/
inductive DecodeError where
  /-- Bits [63:32] are not all 0 (R122). -/
  | reservedBits
  /-- OP is not assigned (R132). -/
  | reservedOpcode
  /-- A field the opcode does not use is not 0 (R123). -/
  | unusedField
deriving DecidableEq, Repr

/-- OP = cmd[5:0] (R121). -/
def fieldOp (w : Word) : BitVec 6 := w.extractLsb' 0 6

/-- VAR = cmd[11:6] (R121). -/
def fieldVar (w : Word) : BitVec 6 := w.extractLsb' 6 6

/-- ZOK = cmd[12] (R121). -/
def fieldZok (w : Word) : Bool := w.getLsbD 12

/-- LOK = cmd[13] (R121). -/
def fieldLok (w : Word) : Bool := w.getLsbD 13

/-- CNT = cmd[23:14] (R121). -/
def fieldCnt (w : Word) : BitVec 10 := w.extractLsb' 14 10

/-- INST = cmd[27:24] (R121). -/
def fieldInst (w : Word) : BitVec 4 := w.extractLsb' 24 4

/-- DST = cmd[31:28] (R121). -/
def fieldDst (w : Word) : BitVec 4 := w.extractLsb' 28 4

/-- Bits [63:32] (R122). -/
def fieldReserved (w : Word) : BitVec 32 := w.extractLsb' 32 32

/-- `i`, unless a field the opcode does not use is not 0 (R123; check 3 of R490). -/
def ifUnusedZero (unusedZero : Bool) (i : Instr) : Except DecodeError Instr :=
  if unusedZero then .ok i else .error .unusedField

/-- Checks 2 and 3 of R490 and the fields of the opcode found (R123, R130). -/
def decodeFields (w : Word) : Except DecodeError Instr :=
  let var := fieldVar w
  let zok := fieldZok w
  let lok := fieldLok w
  let cnt := fieldCnt w
  let inst := fieldInst w
  let dst := fieldDst w
  let onlyInst : Bool := var == 0 && !zok && !lok && cnt == 0 && dst == 0
  match (fieldOp w).toNat with
  | 0x00 => ifUnusedZero (onlyInst && inst == 0) .nop
  | 0x01 => ifUnusedZero (dst == 0) (.seed var zok lok cnt inst)
  | 0x02 => ifUnusedZero (dst == 0) (.seedBytes var zok lok cnt inst)
  | 0x03 => ifUnusedZero (dst == 0 && !lok) (.seedKey var zok cnt inst)
  | 0x04 => ifUnusedZero (dst == 0 && !zok && !lok && cnt == 0) (.seedEntropy var inst)
  | 0x08 => ifUnusedZero onlyInst (.next inst)
  | 0x09 => ifUnusedZero onlyInst (.next32 inst)
  | 0x10 => ifUnusedZero onlyInst (.jump inst)
  | 0x11 => ifUnusedZero onlyInst (.longJump inst)
  | 0x12 => ifUnusedZero onlyInst (.advance inst)
  | 0x18 => ifUnusedZero (var == 0 && !zok && !lok && cnt == 0) (.clone inst dst)
  | 0x1C => ifUnusedZero onlyInst (.stateRead inst)
  | 0x1D => ifUnusedZero onlyInst (.stateWrite inst)
  | 0x1E => ifUnusedZero onlyInst (.query inst)
  | _ => .error .reservedOpcode

/-- The decoder of a command word: checks 1 to 3 of R490, in that order. -/
def decode (w : Word) : Except DecodeError Instr :=
  if fieldReserved w = 0 then decodeFields w else .error .reservedBits

/-- The opcode of a command (R130). -/
def opcodeOf : Instr → BitVec 6
  | .nop => 0x00
  | .seed .. => 0x01
  | .seedBytes .. => 0x02
  | .seedKey .. => 0x03
  | .seedEntropy .. => 0x04
  | .next _ => 0x08
  | .next32 _ => 0x09
  | .jump _ => 0x10
  | .longJump _ => 0x11
  | .advance _ => 0x12
  | .clone .. => 0x18
  | .stateRead _ => 0x1C
  | .stateWrite _ => 0x1D
  | .query _ => 0x1E

/-- The word with the given fields (the layout of R120). -/
def commandWord (op var : BitVec 6) (zok lok : Bool) (cnt : BitVec 10) (inst dst : BitVec 4) : Word :=
  (0 : BitVec 32) ++ dst ++ inst ++ cnt ++ BitVec.ofBool lok ++ BitVec.ofBool zok ++ var ++ op

/-- The one legal encoding of a command (R123, R136). -/
def encode (i : Instr) : Word :=
  match i with
  | .nop => commandWord (opcodeOf i) 0 false false 0 0 0
  | .seed var zok lok cnt inst => commandWord (opcodeOf i) var zok lok cnt inst 0
  | .seedBytes var zok lok cnt inst => commandWord (opcodeOf i) var zok lok cnt inst 0
  | .seedKey var zok cnt inst => commandWord (opcodeOf i) var zok false cnt inst 0
  | .seedEntropy var inst => commandWord (opcodeOf i) var false false 0 inst 0
  | .next inst => commandWord (opcodeOf i) 0 false false 0 inst 0
  | .next32 inst => commandWord (opcodeOf i) 0 false false 0 inst 0
  | .jump inst => commandWord (opcodeOf i) 0 false false 0 inst 0
  | .longJump inst => commandWord (opcodeOf i) 0 false false 0 inst 0
  | .advance inst => commandWord (opcodeOf i) 0 false false 0 inst 0
  | .clone inst dst => commandWord (opcodeOf i) 0 false false 0 inst dst
  | .stateRead inst => commandWord (opcodeOf i) 0 false false 0 inst 0
  | .stateWrite inst => commandWord (opcodeOf i) 0 false false 0 inst 0
  | .query inst => commandWord (opcodeOf i) 0 false false 0 inst 0

/-- The word a CMD write of eight bytes carries, the byte at the lowest offset first (R96); `none` for another length,
which no access has (R92). -/
def wordOfBytes : List Byte → Option Word
  | [b0, b1, b2, b3, b4, b5, b6, b7] => some (b7 ++ b6 ++ b5 ++ b4 ++ b3 ++ b2 ++ b1 ++ b0)
  | _ => none

/-- Byte j of a word is its bits [8j+7 : 8j] (R96). -/
def byteOf (w : Word) (j : Nat) : Byte := w.extractLsb' (8 * j) 8

/-- The eight bytes of a word as the window holds them, lowest offset first (R96). -/
def bytesOfWord (w : Word) : List Byte := (List.range 8).map (byteOf w)

/-- The instruction the decoder reads from an opcode-table row's bits: the row's `nbits` bits of `w` with zeros above,
laid out as a CMD write's eight bytes. -/
def decodeTableWord (nbits w : Nat) : Option Instr :=
  match wordOfBytes (bytesOfWord (BitVec.ofNat 64 (w % 2 ^ nbits))) with
  | some cmd => (decode cmd).toOption
  | none => none

end Sys2Proof
end

