-- ==== Sys2Proof/Machine/State.lean ====
section
/-!
DEFINITION. The state of the block as plain data (10_state.md R30 to R65), the reasons a step can stop, and the state
after reset (R80, R520).
-/

namespace Sys2Proof.Machine

/-- The memory behind the register window: the bytes of OPND that the host has written since reset, keyed by window offset
(R91, R96), in strictly rising order. A byte not listed holds what reset left there, a free value (R31, R80;
`State.byteAt`). -/
abbrev Memory := List Host.Cell

/-- The XOROSHIRO1024 state (R55): the circular array and the index `p` of the word last written as "s15". -/
structure Xoro1024 where
  s : Vector Word 16
  p : BitVec 4
deriving DecidableEq, Repr

/-- A linear congruential state of width `w` (R56: 64, R57: 128). -/
structure Lcg (w : Nat) where
  state : BitVec w
  inc : BitVec w
deriving DecidableEq, Repr

/-- A Mersenne twister state: `n` words of `w` bits and the position counter, 0 to `n` (R58, R59). -/
structure Mt (w n : Nat) where
  mt : Vector (BitVec w) n
  mti : Fin (n + 1)
deriving DecidableEq, Repr

/-- The SFC64 state (R60). -/
structure Sfc where
  a : Word
  b : Word
  c : Word
  counter : Word
deriving DecidableEq, Repr

/-- The JSF64 state (R61). -/
structure Jsf where
  a : Word
  b : Word
  c : Word
  d : Word
deriving DecidableEq, Repr

/-- An MWC state with `r` data words, the oldest first, and a carry (R62). -/
structure Mwc (r : Nat) where
  w : Vector Word r
  c : Word
deriving DecidableEq, Repr

/-- The GMWC128 state (R63). -/
structure Gmwc where
  x : Word
  c : Word
deriving DecidableEq, Repr

/-- VARIANT and S of one engine: "a tagged variant", VARIANT being the tag (R40, R42) and the payload the state S of
that variant (R50). -/
inductive Engine where
  | splitmix64 (x : Word)
  | xoroshiro128p (s : Vector Word 2)
  | xoroshiro128pp (s : Vector Word 2)
  | xoroshiro128ss (s : Vector Word 2)
  | xoshiro256p (s : Vector Word 4)
  | xoshiro256pp (s : Vector Word 4)
  | xoshiro256ss (s : Vector Word 4)
  | xoshiro512p (s : Vector Word 8)
  | xoshiro512pp (s : Vector Word 8)
  | xoshiro512ss (s : Vector Word 8)
  | xoroshiro1024s (s : Xoro1024)
  | xoroshiro1024pp (s : Xoro1024)
  | xoroshiro1024ss (s : Xoro1024)
  | pcg32 (s : Lcg 64)
  | pcg64 (s : Lcg 128)
  | mt19937 (s : Mt 32 624)
  | mt19937w64 (s : Mt 64 312)
  | sfc64 (s : Sfc)
  | jsf64 (s : Jsf)
  | mwc128 (s : Mwc 1)
  | mwc192 (s : Mwc 2)
  | mwc256 (s : Mwc 3)
  | gmwc128 (s : Gmwc)
deriving DecidableEq, Repr

/-- One engine instance `I[i]` (R40): VALID (R39), and VARIANT with S. -/
structure Inst where
  valid : Bool
  engine : Engine
deriving DecidableEq, Repr

/-- The error codes a command can report (R481). OK is the absence of one; InvalidRange (3) is raised by no command. -/
inductive ErrorCode where
  | invalidSeed
  | unsupportedOperation
  | unseeded
  | illegalCommand
  | invalidStateAccess
deriving DecidableEq, Repr

/-- What the host or the platform does to the block (R550): an access of `width` bytes at a byte address (R92), or the
reset input (R520). -/
inductive HostAct where
  | read (addr : Nat) (width : Nat)
  | write (addr : Nat) (width : Nat) (value : Word)
  | reset
deriving DecidableEq, Repr

/-- An act of the host with the time it reaches the block: `early` says that it does so while the command before it is
still executing (BUSY = 1). It matters for a STATUS read, which then completes at once (R102), and for reset, which
then abandons the command (R520); any other access is held (R102). -/
structure HostEvent where
  early : Bool
  act : HostAct
deriving DecidableEq, Repr

/-- The state of the block. STATUS.BUSY, STATUS.NINST and STATUS.VALID are computed from it. -/
structure State where
  /-- OPND (R31), as the bytes of the window that have been written since reset. -/
  mem : Memory
  /-- RES (R33). -/
  res : Word
  /-- STATUS.ERR (R35). -/
  err : BitVec 4
  /-- STATUS.STICKY (R37). -/
  sticky : Bool
  /-- The instances `I[0..NINST-1]` (R40). -/
  insts : List Inst
  /-- The command in execution; BUSY is 1 exactly while there is one (R38, R160). -/
  running : Option Word
  /-- The wired parameters BLOCK_BASE and RAW64_PACK (R8). -/
  params : Params
  /-- MODEL FIELD (log entry 1): the host's events still to be served, in the order the block serves them. -/
  inbox : List HostEvent
  /-- MODEL FIELD (log entry 13): the values answered to the host's reads, oldest first (R550). -/
  replies : List Word
  /-- MODEL FIELD (log entry 9): how many words the entropy port has given (R72). -/
  draws : Nat
  /-- MODEL FIELD (log entry 3): how many times the reset input has acted. It selects the free values that OPND holds
  until the host writes it (R31, R520). -/
  resets : Nat
deriving DecidableEq, Repr

/-- Why a step has no next state. No command raises one of these: they are the host's accesses' alone. -/
inductive Fault where
  /-- A host access that is not 8 bytes wide, or not 8-byte aligned, at window offset `off`. The spec prescribes this
  fault of the host's step (R92, R488, U11). Safe: the block answers a bus error and changes nothing. Raised by the
  host's accesses only. -/
  | busError (off width : Nat)
  /-- A host access at an address outside the window, which the block does not decode (R91; log entry 12). Safe: no such
  access reaches the block. Raised by the host's accesses only. -/
  | outsideWindow (addr : Nat)
deriving DecidableEq, Repr

/-- Why an instruction has no meaning in the model. -/
inductive Refusal where
  /-- The instruction is not modelled yet. Raised by `exec`'s arms only; no arm of this model raises it. Safe. -/
  | notModelled (mnemonic : String)
deriving DecidableEq, Repr

/-- An instance after reset: VALID = 0 (R80). VARIANT and S are unspecified and cannot be observed (R42, U2); the model
names a value. DESIGN CHOICE (log entry 4). -/
def Inst.unseeded : Inst := { valid := false, engine := .splitmix64 0 }

/-- The state after reset of a block with parameters `p` and `ninst` instances (R80, R520). -/
def State.resetWith (p : Params) (ninst : Nat) : State :=
  { mem := []
    res := 0
    err := 0
    sticky := false
    insts := List.replicate ninst Inst.unseeded
    running := none
    params := p
    inbox := []
    replies := []
    draws := 0
    resets := 0 }

/-- The state after reset (R80) of the block the test vectors take: NINST = 4, RAW64_PACK = LOW_FIRST (R8). DESIGN
CHOICE: NINST = 4 (log entry 5) and BLOCK_BASE = 0 (log entry 6). -/
def State.reset : State := State.resetWith { blockBase := 0, raw64Pack := .lowFirst } 4

end Sys2Proof.Machine
end

