-- ==== Sys2Proof/Machine/Flags.lean ====
section
/-!
DEFINITION. The STATUS register and its fields (10_state.md R34 to R39) and the error codes written to STATUS.ERR
(60_exceptions.md R481).
-/

namespace Sys2Proof.Machine

/-- The code of an error (R481). -/
def errorValue : ErrorCode → BitVec 4
  | .invalidSeed => 1
  | .unsupportedOperation => 2
  | .unseeded => 4
  | .illegalCommand => 5
  | .invalidStateAccess => 6

/-- STATUS.BUSY: a command is executing (R38). -/
def State.busy (s : State) : Bool := s.running.isSome

/-- NINST, the number of instances the block has (R8, R34). -/
def State.ninst (s : State) : Nat := s.insts.length

/-- The VALID field as a number: bit i is I[i].VALID (R34). -/
def validBits (insts : List Inst) : Nat := insts.foldr (fun x acc => x.valid.toNat + 2 * acc) 0

/-- The STATUS register (R34): reserved bits [63:32] and [15:13] and [7:6] read 0. -/
def statusWord (s : State) : Word :=
  (0 : BitVec 32) ++ BitVec.ofNat 16 (validBits s.insts) ++ (0 : BitVec 3) ++ BitVec.ofNat 5 s.ninst
    ++ (0 : BitVec 2) ++ BitVec.ofBool s.sticky ++ BitVec.ofBool s.busy ++ s.err

end Sys2Proof.Machine
end

