-- ==== Sys2Proof/Machine/Ops.lean ====
section
/-!
DEFINITION. The named operations every meaning uses: rotates (00_scope.md R10), the memory behind the register window
(20_memory.md R90 to R99), the instances, and how a command ends (40_commands.md R160, 60_exceptions.md R480, R484,
R491): the block's one form of taking an exception. There is no return from it (R492).
-/

namespace Sys2Proof.Machine

/-! ### Rotates -/

/-- `rotl_w(x, k)` for 0 <= k < w (R10). -/
def rotl {w : Nat} (x : BitVec w) (k : Nat) : BitVec w :=
  if k = 0 then x else (x <<< k) ||| (x >>> (w - k))

/-- `rotr_w(x, k) = rotl_w(x, (w - k) mod w)` for 0 <= k < w (R10). -/
def rotr {w : Nat} (x : BitVec w) (k : Nat) : BitVec w := rotl x ((w - k) % w)

/-! ### Memory -/

/-- The byte written at window offset `a`; `none` where nothing has been written since reset (R31, R80). -/
def Memory.readByte : Memory → Nat → Option Byte
  | [], _ => none
  | (k, b) :: m, a => if a = k then some b else Memory.readByte m a

/-- Memory with byte `b` at window offset `a`. Keeps the rising order. -/
def Memory.writeByte : Memory → Nat → Byte → Memory
  | [], a, b => [(a, b)]
  | (k, c) :: m, a, b =>
    if a < k then (a, b) :: (k, c) :: m
    else if a = k then (a, b) :: m
    else (k, c) :: Memory.writeByte m a b

/-- The addresses rise strictly from `lo` on. -/
def Memory.risingFrom : Nat → Memory → Bool
  | _, [] => true
  | lo, (k, _) :: m => decide (lo ≤ k) && Memory.risingFrom (k + 1) m

/-- The canonical form: addresses strictly rising. An entry says that its byte has been written since reset (R31). What an
unlisted byte holds is a free value, with which no entry can be compared (log entry 17). -/
def Memory.wf (m : Memory) : Bool := Memory.risingFrom 0 m

/-- Memory with the 64-bit register at window offset `a` written, little-endian (R96). -/
def Memory.write64 (m : Memory) (a : Nat) (v : Word) : Memory :=
  (List.range 8).foldl (fun m j => Memory.writeByte m (a + j) (byteOf v j)) m

/-- The window offset of OPND[k] (R91). -/
def opndOffset (k : Nat) : Nat := 0x1000 + 8 * k

/-- The byte at window offset `a` of the operand registers: what was written last, and before the first write since reset
the free value that reset left (R31, R80; log entry 3). -/
def State.byteAt (s : State) (a : Nat) : Byte := (Memory.readByte s.mem a).getD (Config.opndByte s.resets a)

/-- The value of OPND[k] (R31): its eight bytes, little-endian (R96). -/
def State.opnd (s : State) (k : Nat) : Word :=
  s.byteAt (opndOffset k + 7) ++ s.byteAt (opndOffset k + 6) ++ s.byteAt (opndOffset k + 5) ++ s.byteAt (opndOffset k + 4)
    ++ s.byteAt (opndOffset k + 3) ++ s.byteAt (opndOffset k + 2) ++ s.byteAt (opndOffset k + 1)
    ++ s.byteAt (opndOffset k)

/-- The host has written OPND[k] since reset (R31). -/
def State.opndWritten (s : State) (k : Nat) : Bool :=
  (List.range 8).all fun j => (Memory.readByte s.mem (opndOffset k + j)).isSome

/-- The host's write of OPND[k] (R91): the only access that stores. -/
def State.writeOpnd (s : State) (k : Nat) (v : Word) : State :=
  { s with mem := Memory.write64 s.mem (opndOffset k) v }

/-! ### Registers and instances -/

/-- `RES <- v` (R33). -/
def State.setRes (s : State) (v : Word) : State := { s with res := v }

/-- `I[i]` (R40). -/
def State.inst (s : State) (i : BitVec 4) : Inst := s.insts.getD i.toNat Inst.unseeded

/-- `I[i].VARIANT, I[i].S <- e; I[i].VALID <- 1`: what a seeding command, CLONE and an advance of the state leave (R39,
R42). The other instances are untouched (R41). -/
def State.setEngine (s : State) (i : BitVec 4) (e : Engine) : State :=
  { s with insts := s.insts.set i.toNat { valid := true, engine := e } }

/-- The entropy port's next `n` words, in order (R72, R169). -/
def State.entropyWords (s : State) (n : Nat) : List Word :=
  (List.range n).map fun j => Config.entropy (s.draws + j)

/-- `n` words have been taken from the entropy port. -/
def State.takeDraws (s : State) (n : Nat) : State := { s with draws := s.draws + n }

/-! ### How a command ends -/

/-- A command's rule: the state its effects leave (before STATUS is written), or the error it ends in (R11). -/
abbrev Body := Except ErrorCode State

/-- The end of a command that succeeds (R35, R160): ERR <- 0 and BUSY <- 0. STICKY stays (R37). -/
def State.complete (s : State) : State := { s with err := 0, running := none }

/-- A refused command, the whole of the block's exception entry (R480, R484, R491): ERR <- code, STICKY <- 1, BUSY <- 0,
and every instance and RES as they were before the command, which is the state `s`. -/
def State.refuse (s : State) (e : ErrorCode) : State :=
  { s with err := errorValue e, sticky := true, running := none }

/-- The end of the command that started in `s` (R160): on an error nothing of `body` remains (rollback, R484). -/
def finish (s : State) (body : Body) : Host.Outcome State Fault Refusal :=
  match body with
  | .ok t => .next t.complete
  | .error e => .next (s.refuse e)

/-- End the command with error `e` (R11). -/
def raise {α : Type} (e : ErrorCode) : Except ErrorCode α := .error e

/-- `raise e` unless `c` holds. -/
def check (c : Bool) (e : ErrorCode) : Except ErrorCode Unit := if c then .ok () else raise e

/-- Check 5 of R490: INST (or CLONE's DST) names an instance the block has (R124). -/
def checkInst (s : State) (i : BitVec 4) : Except ErrorCode Unit := check (decide (i.toNat < s.ninst)) .illegalCommand

/-- Check 7a of R490: the engine of instance `i`, which must be seeded (R485). -/
def seededEngine (s : State) (i : BitVec 4) : Except ErrorCode Engine :=
  if (s.inst i).valid then .ok (s.inst i).engine else raise .unseeded

/-- Checks 5 and 7a of R490, which every command but NOP and the seeding commands starts with. -/
def engineOf (s : State) (i : BitVec 4) : Except ErrorCode Engine := do
  checkInst s i
  seededEngine s i

end Sys2Proof.Machine
end

