-- ==== Sys2Proof/Machine/Xoshiro.lean ====
section
/-!
DEFINITION. The xoshiro/xoroshiro families (42_xoshiro.md R230 to R256): steps, output functions and jump tables. Every
output is computed from the state before the step.
-/

namespace Sys2Proof.Machine

/-! ### Steps -/

/-- `step128(a, b, c)` (R231). -/
def step128 (a b c : Nat) (s : Vector Word 2) : Vector Word 2 :=
  let s1 := s[1] ^^^ s[0]
  #v[rotl s[0] a ^^^ s1 ^^^ (s1 <<< b), rotl s1 c]

/-- The step of XOROSHIRO128P and XOROSHIRO128SS (R231). -/
def stepXoro128 (s : Vector Word 2) : Vector Word 2 := step128 24 16 37 s

/-- The step of XOROSHIRO128PP (R232). -/
def stepXoro128pp (s : Vector Word 2) : Vector Word 2 := step128 49 21 28 s

/-- `step256` (R236), the assignments in order. -/
def step256 (s : Vector Word 4) : Vector Word 4 :=
  let t := s[1] <<< 17
  let s2 := s[2] ^^^ s[0]
  let s3 := s[3] ^^^ s[1]
  let s1 := s[1] ^^^ s2
  let s0 := s[0] ^^^ s3
  let s2 := s2 ^^^ t
  let s3 := rotl s3 45
  #v[s0, s1, s2, s3]

/-- `step512` (R240), the assignments in order. -/
def step512 (s : Vector Word 8) : Vector Word 8 :=
  let t := s[1] <<< 11
  let s2 := s[2] ^^^ s[0]
  let s5 := s[5] ^^^ s[1]
  let s1 := s[1] ^^^ s2
  let s7 := s[7] ^^^ s[3]
  let s3 := s[3] ^^^ s[4]
  let s4 := s[4] ^^^ s5
  let s0 := s[0] ^^^ s[6]
  let s6 := s[6] ^^^ s7
  let s6 := s6 ^^^ t
  let s7 := rotl s7 21
  #v[s0, s1, s2, s3, s4, s5, s6, s7]

/-- `s0` of R244: the word `s[(p + 1) mod 16]` before the step. -/
def xoro1024S0 (x : Xoro1024) : Word := x.s[(x.p + 1).toNat]

/-- `s15` of R244: the word `s[p]` before the step. -/
def xoro1024S15 (x : Xoro1024) : Word := x.s[x.p.toNat]

/-- `step1024` (R244). -/
def step1024 (x : Xoro1024) : Xoro1024 :=
  let q := x.p
  let p := x.p + 1
  let s0 := xoro1024S0 x
  let s15 := xoro1024S15 x ^^^ s0
  { s := (x.s.set q.toNat (rotl s0 25 ^^^ s15 ^^^ (s15 <<< 27))).set p.toNat (rotl s15 36), p := p }

/-! ### Output functions -/

/-- The output of XOROSHIRO128P (R233). -/
def outXoro128p (s : Vector Word 2) : Word := s[0] + s[1]

/-- The output of XOROSHIRO128PP (R234). -/
def outXoro128pp (s : Vector Word 2) : Word := rotl (s[0] + s[1]) 17 + s[0]

/-- The output of XOROSHIRO128SS (R235). -/
def outXoro128ss (s : Vector Word 2) : Word := rotl (s[0] * 5) 7 * 9

/-- The output of XOSHIRO256P (R237). -/
def outXo256p (s : Vector Word 4) : Word := s[0] + s[3]

/-- The output of XOSHIRO256PP (R238). -/
def outXo256pp (s : Vector Word 4) : Word := rotl (s[0] + s[3]) 23 + s[0]

/-- The output of XOSHIRO256SS (R239). -/
def outXo256ss (s : Vector Word 4) : Word := rotl (s[1] * 5) 7 * 9

/-- The output of XOSHIRO512P (R241). -/
def outXo512p (s : Vector Word 8) : Word := s[0] + s[2]

/-- The output of XOSHIRO512PP (R242). -/
def outXo512pp (s : Vector Word 8) : Word := rotl (s[0] + s[2]) 17 + s[2]

/-- The output of XOSHIRO512SS (R243). -/
def outXo512ss (s : Vector Word 8) : Word := rotl (s[1] * 5) 7 * 9

/-- The output of XOROSHIRO1024S (R245). -/
def outXoro1024s (x : Xoro1024) : Word := xoro1024S0 x * 0x9E3779B97F4A7C13

/-- The output of XOROSHIRO1024PP (R246). -/
def outXoro1024pp (x : Xoro1024) : Word := rotl (xoro1024S0 x + xoro1024S15 x) 23 + xoro1024S15 x

/-- The output of XOROSHIRO1024SS (R247). -/
def outXoro1024ss (x : Xoro1024) : Word := rotl (xoro1024S0 x * 5) 7 * 9

/-! ### Jump tables -/

/-- JUMP_TABLE of XOROSHIRO128P and XOROSHIRO128SS, stride 2^64 (R250). -/
def jumpXoro128 : List Word := [0xDF900294D8F554A5, 0x170865DF4B3201FC]

/-- LONG_JUMP_TABLE of XOROSHIRO128P and XOROSHIRO128SS, stride 2^96 (R250). -/
def longJumpXoro128 : List Word := [0xD2A98B26625EEE7B, 0xDDDF9B1090AA7AC1]

/-- JUMP_TABLE of XOROSHIRO128PP, stride 2^64 (R251). -/
def jumpXoro128pp : List Word := [0x2BD7A6A6E99C2DDC, 0x0992CCAF6A6FCA05]

/-- LONG_JUMP_TABLE of XOROSHIRO128PP, stride 2^96 (R251). -/
def longJumpXoro128pp : List Word := [0x360FD5F2CF8D5D99, 0x9C6E6877736C46E3]

/-- JUMP_TABLE of the XOSHIRO256 variants, stride 2^128 (R252). -/
def jumpXo256 : List Word := [0x180EC6D33CFD0ABA, 0xD5A61266F0C9392C, 0xA9582618E03FC9AA, 0x39ABDC4529B1661C]

/-- LONG_JUMP_TABLE of the XOSHIRO256 variants, stride 2^192 (R252). -/
def longJumpXo256 : List Word := [0x76E15D3EFEFDCBBF, 0xC5004E441C522FB3, 0x77710069854EE241, 0x39109BB02ACBE635]

/-- JUMP_TABLE of the XOSHIRO512 variants, stride 2^256 (R253). -/
def jumpXo512 : List Word :=
  [0x33ED89B6E7A353F9, 0x760083D7955323BE, 0x2837F2FBB5F22FAE, 0x4B8C5674D309511C,
   0xB11AC47A7BA28C25, 0xF1BE7667092BCC1C, 0x53851EFDB6DF0AAF, 0x1EBBC8B23EAF25DB]

/-- LONG_JUMP_TABLE of the XOSHIRO512 variants, stride 2^384 (R253). -/
def longJumpXo512 : List Word :=
  [0x11467FEF8F921D28, 0xA2A819F2E79C8EA8, 0xA8299FC284B3959A, 0xB4D347340CA63EE1,
   0x1CB0940BEDBFF6CE, 0xD956C5C4FA1F8E17, 0x915E38FD4EDA93BC, 0x5B3CCDFA5D7DACA5]

/-- JUMP_TABLE of the XOROSHIRO1024 variants, stride 2^512 (R254). -/
def jumpXoro1024 : List Word :=
  [0x931197D8E3177F17, 0xB59422E0B9138C5F, 0xF06A6AFB49D668BB, 0xACB8A6412C8A1401] ++
  [0x12304EC85F0B3468, 0xB7DFE7079209891E, 0x405B7EEC77D9EB14, 0x34EAD68280C44E4A] ++
  [0xE0E4BA3E0AC9E366, 0x8F46EDA8348905B7, 0x328BF4DBAD90D6FF, 0xC8FD6FB31C9EFFC3] ++
  [0xE899D452D4B67652, 0x45F387286ADE3205, 0x03864F454A8920BD, 0xA68FA28725B1B384]

/-- LONG_JUMP_TABLE of the XOROSHIRO1024 variants, stride 2^768 (R254). -/
def longJumpXoro1024 : List Word :=
  [0x7374156360BBF00F, 0x4630C2EFA3B3C1F6, 0x6654183A892786B1, 0x94F7BFCBFB0F1661] ++
  [0x27D8243D3D13EB2D, 0x9701730F3DFB300F, 0x2F293BAAE6F604AD, 0xA661831CB60CD8B6] ++
  [0x68280C77D9FE008C, 0x50554160F5BA9459, 0x2FC20B17EC7B2A9A, 0x49189BBDC8EC9F8F] ++
  [0x92A65BCA41852CC1, 0xF46820DD0509C12A, 0x52B00C35FBF92185, 0x1E5B3B7F589E03C1]

end Sys2Proof.Machine
end

