-- ==== Sys2Proof/Machine/Gf2Jump.lean ====
section
/-!
DEFINITION. The GF(2) jump polynomial evaluator (43_gf2_jump.md R280 to R287).
-/

namespace Sys2Proof.Machine

/-- `acc[j] <- acc[j] ^ s[j]` for every j (R281). -/
def xorWords {n : Nat} (acc s : Vector Word n) : Vector Word n := Vector.ofFn fun j => acc[j] ^^^ s[j]

/-- The bits of a table in the order the walk takes them: word 0 first, each word from bit 0 to bit 63 (R281). -/
def tableBits (table : List Word) : List Bool := table.flatMap fun t => (List.range 64).map t.getLsbD

/-- The GF(2) bit walk (R281): for each bit, the accumulator takes the state's view if the bit is set, and then the
state steps. It answers the accumulator and the stepped state. -/
def gf2Walk {σ : Type} {n : Nat} (step : σ → σ) (view : σ → Vector Word n) :
    List Bool → Vector Word n → σ → Vector Word n × σ
  | [], acc, s => (acc, s)
  | b :: bits, acc, s => gf2Walk step view bits (if b then xorWords acc (view s) else acc) (step s)

/-- `gf2_jump(S, T)` for the 2-, 4- and 8-word variants (R281). The stepped state is discarded. -/
def gf2Jump {n : Nat} (step : Vector Word n → Vector Word n) (table : List Word) (s : Vector Word n) :
    Vector Word n :=
  (gf2Walk step id (tableBits table) (Vector.replicate n 0) s).1

/-- The words of a 16-word state in the order the generator sees them: `s[(j + p) mod 16]` (R282). -/
def xoro1024View (x : Xoro1024) : Vector Word 16 := Vector.ofFn fun j => x.s[(j.val + x.p.toNat) % 16]

/-- The 16-word state with index `p` whose view is `v`: `s[(j + p) mod 16] <- v[j]` (R282). -/
def xoro1024OfView (p : BitVec 4) (v : Vector Word 16) : Xoro1024 :=
  { s := Vector.ofFn fun k => v[(k.val + 16 - p.toNat) % 16], p := p }

/-- `gf2_jump(S, T)` for the 16-word variants, relative to p (R282). -/
def gf2Jump1024 (table : List Word) (x : Xoro1024) : Xoro1024 :=
  let walked := gf2Walk step1024 xoro1024View (tableBits table) (Vector.replicate 16 0) x
  xoro1024OfView walked.2.p walked.1

end Sys2Proof.Machine
end

