-- ==== Sys2Proof/Machine/Mersenne.lean ====
section
/-!
DEFINITION. MT19937 and MT19937_64 (45_mt19937.md R340 to R357): one set of operations over the two parameter sets.
-/

namespace Sys2Proof.Machine

/-- The parameters of a twisted generator with words of `w` bits (R340 to R342, R350 to R352). -/
structure MtParams (w : Nat) where
  /-- M, the middle offset. -/
  m : Nat
  matrixA : BitVec w
  upperMask : BitVec w
  lowerMask : BitVec w
  /-- The multiplier of `mt_genrand`. -/
  initMult : BitVec w
  /-- The right shift of the three recurrences. -/
  initShift : Nat
  /-- The multiplier of `mt_by_array`'s first pass. -/
  keyMult1 : BitVec w
  /-- The multiplier of `mt_by_array`'s second pass. -/
  keyMult2 : BitVec w

/-- The parameters of MT19937 (R340, R341, R342). -/
def mt32Params : MtParams 32 :=
  { m := 397, matrixA := 0x9908B0DF, upperMask := 0x80000000, lowerMask := 0x7FFFFFFF
    initMult := 1812433253, initShift := 30, keyMult1 := 1664525, keyMult2 := 1566083941 }

/-- The parameters of MT19937_64 (R350, R351, R352). -/
def mt64Params : MtParams 64 :=
  { m := 156, matrixA := 0xB5026F5AA96619E9, upperMask := 0xFFFFFFFF80000000, lowerMask := 0x000000007FFFFFFF
    initMult := 6364136223846793005, initShift := 62, keyMult1 := 3935559000370003845, keyMult2 := 2862933555777941757 }

/-- Element k of an array (0 beyond its end, which no rule reads). -/
def mtAt {w n : Nat} (mt : Vector (BitVec w) n) (k : Nat) : BitVec w := mt.getD k 0

/-- `mt[i-1] ^ (mt[i-1] >> shift)`, the mixed previous word of the recurrences (R341, R342, R351, R352). -/
def mtMix {w n : Nat} (P : MtParams w) (mt : Vector (BitVec w) n) (i : Nat) : BitVec w :=
  mtAt mt (i - 1) ^^^ (mtAt mt (i - 1) >>> P.initShift)

/-- The array `mt_genrand(s)` fills (R341, R351). -/
def mtGenrandArray {w : Nat} (P : MtParams w) (n : Nat) (s : BitVec w) : Vector (BitVec w) n :=
  (List.range (n - 1)).foldl
    (fun mt k => mt.setIfInBounds (k + 1) (P.initMult * mtMix P mt (k + 1) + BitVec.ofNat w (k + 1)))
    ((Vector.replicate n 0).setIfInBounds 0 s)

/-- A state whose next output twists first: mti = N (R58, R59). -/
def mtFresh {w n : Nat} (mt : Vector (BitVec w) n) : Mt w n := { mt := mt, mti := Fin.last n }

/-- `mt_genrand(s)` (R341, R351). -/
def mtGenrand {w : Nat} (P : MtParams w) (n : Nat) (s : BitVec w) : Mt w n := mtFresh (mtGenrandArray P n s)

/-- `i <- i + 1; if i >= N: mt[0] <- mt[N-1]; i <- 1` (R342, R352). -/
def mtNextIndex {w n : Nat} (mt : Vector (BitVec w) n) (i : Nat) : Vector (BitVec w) n × Nat :=
  if i + 1 ≥ n then (mt.setIfInBounds 0 (mtAt mt (n - 1)), 1) else (mt, i + 1)

/-- The first pass of `mt_by_array`, `count` turns from indices i and j (R342, R352). -/
def mtFirstPass {w n : Nat} (P : MtParams w) (key : List (BitVec w)) :
    Nat → Nat → Nat → Vector (BitVec w) n → Vector (BitVec w) n × Nat
  | 0, i, _, mt => (mt, i)
  | count + 1, i, j, mt =>
    let x := (mtAt mt i ^^^ (mtMix P mt i * P.keyMult1)) + key.getD j 0 + BitVec.ofNat w j
    let next := mtNextIndex (mt.setIfInBounds i x) i
    mtFirstPass P key count next.2 (if j + 1 ≥ key.length then 0 else j + 1) next.1

/-- The second pass of `mt_by_array`, `count` turns from index i (R342, R352). -/
def mtSecondPass {w n : Nat} (P : MtParams w) : Nat → Nat → Vector (BitVec w) n → Vector (BitVec w) n
  | 0, _, mt => mt
  | count + 1, i, mt =>
    let x := (mtAt mt i ^^^ (mtMix P mt i * P.keyMult2)) - BitVec.ofNat w i
    let next := mtNextIndex (mt.setIfInBounds i x) i
    mtSecondPass P count next.2 next.1

/-- `mt_by_array(key)` (R342, R352): two passes over `mt_genrand(19650218)`, and the first word set to its most
significant bit alone. -/
def mtByArray {w : Nat} (P : MtParams w) (n : Nat) (key : List (BitVec w)) : Mt w n :=
  let first := mtFirstPass P key (max n key.length) 1 0 (mtGenrandArray P n (19650218 : BitVec w))
  let mt := mtSecondPass P (n - 1) first.2 first.1
  mtFresh (mt.setIfInBounds 0 (BitVec.twoPow w (w - 1)))

/-- One turn of the twist pass, at index k (R345). -/
def mtTwistAt {w n : Nat} (P : MtParams w) (mt : Vector (BitVec w) n) (k : Nat) : Vector (BitVec w) n :=
  let y := (mtAt mt k &&& P.upperMask) ||| (mtAt mt ((k + 1) % n) &&& P.lowerMask)
  let magic := if y.getLsbD 0 then P.matrixA else 0
  mt.setIfInBounds k (mtAt mt ((k + P.m) % n) ^^^ (y >>> 1) ^^^ magic)

/-- The array the twist pass leaves: k from 0 to N-1, in order and in place (R345, R355). -/
def mtTwist {w n : Nat} (P : MtParams w) (mt : Vector (BitVec w) n) : Vector (BitVec w) n :=
  (List.range n).foldl (mtTwistAt P) mt

/-- The state the next output is drawn from: if mti = N, twisted, with mti = 0 (R346, R356). -/
def mtReady {w n : Nat} (P : MtParams w) (s : Mt w n) : Mt w n :=
  if s.mti.val ≥ n then { mt := mtTwist P s.mt, mti := 0 } else s

/-- `next_MT` before tempering: the word at mti of the ready state, and mti advanced (R346, R356). -/
def mtNextWord {w n : Nat} (P : MtParams w) (s : Mt w n) : BitVec w × Mt w n :=
  let s := mtReady P s
  (mtAt s.mt s.mti.val, { s with mti := Fin.ofNat (n + 1) (s.mti.val + 1) })

/-- `temper32` (R344). -/
def temper32 (y : Word32) : Word32 :=
  let y := y ^^^ (y >>> 11)
  let y := y ^^^ ((y <<< 7) &&& 0x9D2C5680)
  let y := y ^^^ ((y <<< 15) &&& 0xEFC60000)
  y ^^^ (y >>> 18)

/-- `temper64` (R354). -/
def temper64 (x : Word) : Word :=
  let x := x ^^^ ((x >>> 29) &&& 0x5555555555555555)
  let x := x ^^^ ((x <<< 17) &&& 0x71D67FFFEDA60000)
  let x := x ^^^ ((x <<< 37) &&& 0xFFF7EEE000000000)
  x ^^^ (x >>> 43)

/-- `next_MT19937` (R346). -/
def mt32Next (s : Mt 32 624) : Word32 × Mt 32 624 :=
  let drawn := mtNextWord mt32Params s
  (temper32 drawn.1, drawn.2)

/-- `next_MT19937_64` (R356). -/
def mt64Next (s : Mt 64 312) : Word × Mt 64 312 :=
  let drawn := mtNextWord mt64Params s
  (temper64 drawn.1, drawn.2)

end Sys2Proof.Machine
end

