-- ==== Sys2Proof/Machine/MultiplyCarry.lean ====
section
/-!
DEFINITION. The multiply-with-carry families (48_mwc.md R420 to R430) and the modular multiplicative jump engine
(49_modular_jump.md R450 to R465). Products and sums are exact integers, narrowed where the rule narrows them.
-/

namespace Sys2Proof.Machine

/-! ### MWC128, MWC192, MWC256 -/

/-- A of MWC128 (R421). -/
def mwc128A : Word := 0xFFEBB71D94FCDAF9

/-- A of MWC192 (R421). -/
def mwc192A : Word := 0xFFA04E67B3C95D86

/-- A of MWC256 (R421). -/
def mwc256A : Word := 0xFFF62CF2CCC0CDAF

/-- `t = A * w[0] + c`, exact: it is below 2^128 (R422). -/
def mwcT {r : Nat} (mult : Word) (s : Mwc r) : Nat := mult.toNat * (s.w.getD 0 0).toNat + s.c.toNat

/-- The step of R422: each word becomes one older, the newest word and the carry are the halves of t. -/
def mwcStep {r : Nat} (mult : Word) (s : Mwc r) : Mwc r :=
  { w := Vector.ofFn fun i => if i.val + 1 < r then s.w.getD (i.val + 1) 0 else BitVec.ofNat 64 (mwcT mult s)
    c := BitVec.ofNat 64 (mwcT mult s / 2 ^ 64) }

/-- `out_MWC128` (R423). -/
def outMwc128 (s : Mwc 1) : Word := s.w[0] ^^^ (s.w[0] <<< 32)

/-- `out_MWC192` (R424). -/
def outMwc192 (s : Mwc 2) : Word := s.w[1]

/-- `out_MWC256` (R424). -/
def outMwc256 (s : Mwc 3) : Word := s.w[2]

/-- `init_MWCn(u[0..r-1])`: the data words are the seed and c = 1 (R425). -/
def mwcInit (r : Nat) (u : List Word) : Mwc r := { w := Vector.ofFn fun i => u.getD i.val 0, c := 1 }

/-- `pack(S)` (R450): the sum of `w[i] * 2^(64 i)` and `c * 2^(64 r)`. -/
def mwcPack {r : Nat} (s : Mwc r) : Nat :=
  ((List.finRange r).map fun i => s.w[i].toNat * 2 ^ (64 * i.val)).sum + s.c.toNat * 2 ^ (64 * r)

/-- `unpack(v)` (R450). -/
def mwcUnpack (r v : Nat) : Mwc r :=
  { w := Vector.ofFn fun i => BitVec.ofNat 64 (v / 2 ^ (64 * i.val)), c := BitVec.ofNat 64 (v / 2 ^ (64 * r)) }

/-- The modulus `M = A * 2^(64r) - 1` (R450). -/
def mwcModulus (r : Nat) (mult : Word) : Nat := mult.toNat * 2 ^ (64 * r) - 1

/-- `mwc_jump(S, J)` (R451), defined for every state (R457). -/
def mwcJump {r : Nat} (mult : Word) (j : Nat) (s : Mwc r) : Mwc r := mwcUnpack r (mwcPack s * j % mwcModulus r mult)

/-- J_JUMP of MWC128, stride 2^64 (R453). -/
def mwc128JumpConst : Nat := 0x2F65FED2E8400983A72F9A3547208003

/-- J_LONG_JUMP of MWC128, stride 2^96 (R453). -/
def mwc128LongJumpConst : Nat := 0x394649CFD6769C91E6F7814467F3FCDD

/-- J_JUMP of MWC192, stride 2^96 (R453). -/
def mwc192JumpConst : Nat := 0x0DC2BE36E4BD21A2AFC217E3B9EDF985D94FB8D87C7C6437

/-- J_LONG_JUMP of MWC192, stride 2^144 (R453). -/
def mwc192LongJumpConst : Nat := 0x3C6528AAEAD6BBDDEC956C3909137B2DD0E7CEDD16A0758E

/-- J_JUMP of MWC256, stride 2^128 (R453). -/
def mwc256JumpConst : Nat := 0x4B89AA2CD51C37B9F6F8C3FD02EC98FBFE88C291203B225428C3FF11313847EB

/-- J_LONG_JUMP of MWC256, stride 2^192 (R453). -/
def mwc256LongJumpConst : Nat := 0x0AF5CA22408CDC8306C40CE860E0D702F95382F758AC987764C6E39CF92F77A4

/-! ### GMWC128 -/

/-- A1 (R427). -/
def gmwcA1 : Word := 0xFF002AAE7D81A646

/-- MINUSA0 (R427). -/
def gmwcMinusA0 : Word := 0x007D084A4D80885F

/-- A0INV (R427). -/
def gmwcA0Inv : Word := 0x9B1EEA3792A42C61

/-- `t = A1 * x + c`, exact (R428). -/
def gmwcT (s : Gmwc) : Nat := gmwcA1.toNat * s.x.toNat + s.c.toNat

/-- `next_GMWC128` (R428): the output is the new x. -/
def gmwcNext (s : Gmwc) : Word × Gmwc :=
  let x := gmwcA0Inv * BitVec.ofNat 64 (gmwcT s)
  (x, { x := x, c := BitVec.ofNat 64 ((gmwcT s + gmwcMinusA0.toNat * x.toNat) / 2 ^ 64) })

/-- `init_GMWC128(u[0])` (R429). -/
def gmwcInit (u0 : Word) : Gmwc := { x := u0, c := 1 }

/-- The modulus `m = A1 * 2^64 + MINUSA0` (R460). -/
def gmwcModulus : Nat := gmwcA1.toNat * 2 ^ 64 + gmwcMinusA0.toNat

/-- The s-value `2^64 c - MINUSA0 x`, normalised into [0, m) (R455, R460). -/
def gmwcSValue (s : Gmwc) : Nat :=
  (((2 ^ 64 * s.c.toNat : Int) - (gmwcMinusA0.toNat * s.x.toNat : Int)) % (gmwcModulus : Int)).toNat

/-- The state an s-value decodes to: the last two lines of R460. -/
def gmwcOfSValue (v : Nat) : Gmwc :=
  let x := BitVec.ofNat 64 (v * gmwcA0Inv.toNat)
  { x := x, c := BitVec.ofNat 64 ((v + gmwcMinusA0.toNat * x.toNat) / 2 ^ 64) }

/-- `gmwc_jump(S, K)` (R460), defined for every state (R462). -/
def gmwcJump (k : Nat) (s : Gmwc) : Gmwc := gmwcOfSValue (gmwcSValue s * k % gmwcModulus)

/-- K_JUMP, stride 2^64 (R461). There is no long-jump constant (R463). -/
def gmwcJumpConst : Nat := 0xEFF1CF6268DB2DD61F03B9690DC51B2F

end Sys2Proof.Machine
end

