-- ==== Sys2Proof/Machine/Pcg.lean ====
section
/-!
DEFINITION. PCG32 and PCG64 and the affine doubling advance (44_pcg.md R300 to R313).
-/

namespace Sys2Proof.Machine

/-- MULT32 (R301). -/
def pcgMult32 : Word := 0x5851F42D4C957F2D

/-- MULT64 (R304). -/
def pcgMult64 : Word128 := 0x2360ED051FC65DA44385DF649FCCF645

/-- One LCG step: `state <- state * M + inc` modulo 2^w (R301, R304). -/
def lcgStep {w : Nat} (mult : BitVec w) (s : Lcg w) : Lcg w := { s with state := s.state * mult + s.inc }

/-- pcg-c's seeding from initstate and initseq (R300, R303). -/
def lcgInit {w : Nat} (mult initstate initseq : BitVec w) : Lcg w :=
  let s : Lcg w := { state := 0, inc := (initseq <<< 1) ||| 1 }
  let s := lcgStep mult s
  let s := { s with state := s.state + initstate }
  lcgStep mult s

/-- `init_PCG32(u[0], u[1])` (R300). -/
def pcg32Init (u0 u1 : Word) : Lcg 64 := lcgInit pcgMult32 u0 u1

/-- `init_PCG64(u[0..3])`: initstate and initseq, less significant word first (R303). -/
def pcg64Init (u0 u1 u2 u3 : Word) : Lcg 128 := lcgInit pcgMult64 (u1 ++ u0) (u3 ++ u2)

/-- The XSH-RR output of a PCG32 state (R302). -/
def pcg32Out (state : Word) : Word32 :=
  let xs : Word32 := (((state >>> 18) ^^^ state) >>> 27).setWidth 32
  rotr xs (state >>> 59).toNat

/-- `next_PCG32` (R302): the output is taken from the state before the step. -/
def pcg32Next (s : Lcg 64) : Word32 × Lcg 64 := (pcg32Out s.state, lcgStep pcgMult32 s)

/-- The XSL-RR output of a PCG64 state (R305). -/
def pcg64Out (state : Word128) : Word :=
  let x : Word := (state >>> 64).setWidth 64 ^^^ state.setWidth 64
  rotr x (state >>> 122).toNat

/-- `next_PCG64` (R305): the output is taken from the state after the step. -/
def pcg64Next (s : Lcg 128) : Word × Lcg 128 :=
  let s := lcgStep pcgMult64 s
  (pcg64Out s.state, s)

/-- The loop of R310 on the working pair of the advance. The loop ends when delta is 0; `fuel` bounds its turns, and as
many as delta has bits are enough (R311). -/
def lcgAdvanceLoop {w : Nat} : Nat → Nat → BitVec w → BitVec w → BitVec w → BitVec w → BitVec w × BitVec w
  | 0, _, accMult, accPlus, _, _ => (accMult, accPlus)
  | fuel + 1, delta, accMult, accPlus, curMult, curPlus =>
    if delta = 0 then (accMult, accPlus)
    else
      let odd := delta % 2 = 1
      lcgAdvanceLoop fuel (delta / 2)
        (if odd then accMult * curMult else accMult)
        (if odd then accPlus * curMult + curPlus else accPlus)
        (curMult * curMult)
        ((curMult + 1) * curPlus)

/-- `pcg_advance(S, delta)` (R310). inc is not changed. -/
def lcgAdvance {w : Nat} (mult : BitVec w) (delta : BitVec w) (s : Lcg w) : Lcg w :=
  let acc := lcgAdvanceLoop w delta.toNat 1 0 mult s.inc
  { s with state := acc.1 * s.state + acc.2 }

end Sys2Proof.Machine
end

