-- ==== Sys2Proof/Machine/SmallChaotic.lean ====
section
/-!
DEFINITION. SFC64 (46_sfc64.md R380 to R384) and JSF64 (47_jsf64.md R400 to R404).
-/

namespace Sys2Proof.Machine

/-- `next_SFC64` (R381): the output is the sum computed from the old state. -/
def sfcNext (s : Sfc) : Word × Sfc :=
  let tmp := s.a + s.b + s.counter
  (tmp, { a := s.b ^^^ (s.b >>> 11), b := s.c + (s.c <<< 3), c := rotl s.c 24 + tmp, counter := s.counter + 1 })

/-- `init_SFC64(u[0])` (R382): twelve outputs are discarded. -/
def sfcInit (u0 : Word) : Sfc := (fun s => (sfcNext s).2)^[12] { a := u0, b := u0, c := u0, counter := 1 }

/-- `next_JSF64` (R401): the output is the new d. -/
def jsfNext (s : Jsf) : Word × Jsf :=
  let e := s.a - rotl s.b 7
  let a := s.b ^^^ rotl s.c 13
  let b := s.c + rotl s.d 37
  let c := s.d + e
  let d := e + a
  (d, { a := a, b := b, c := c, d := d })

/-- `init_JSF64(u[0])` (R402): twenty outputs are discarded. -/
def jsfInit (u0 : Word) : Jsf := (fun s => (jsfNext s).2)^[20] { a := 0xF1EA5EED, b := u0, c := u0, d := u0 }

end Sys2Proof.Machine
end

