-- ==== Sys2Proof/Machine/SplitMix.lean ====
section
/-!
DEFINITION. splitmix64 (41_splitmix64.md R220 to R225).
-/

namespace Sys2Proof.Machine

/-- GAMMA (R220). -/
def splitMixGamma : Word := 0x9E3779B97F4A7C15

/-- M1 (R220). -/
def splitMixM1 : Word := 0xBF58476D1CE4E5B9

/-- M2 (R220). -/
def splitMixM2 : Word := 0x94D049BB133111EB

/-- The finalizer of the new state (R221). -/
def splitMixOut (x : Word) : Word :=
  let z := x
  let z := (z ^^^ (z >>> 30)) * splitMixM1
  let z := (z ^^^ (z >>> 27)) * splitMixM2
  z ^^^ (z >>> 31)

/-- The state update of R221. -/
def splitMixStep (x : Word) : Word := x + splitMixGamma

/-- `next_SPLITMIX64` (R221): the output is computed from the new state. -/
def splitMixNext (x : Word) : Word × Word := (splitMixOut (splitMixStep x), splitMixStep x)

/-- The first `n` outputs of `SplitMix64Stream(x)` (R224). -/
def splitMixStream : Word → Nat → List Word
  | _, 0 => []
  | x, n + 1 => (splitMixNext x).1 :: splitMixStream (splitMixNext x).2 n

end Sys2Proof.Machine
end

