-- ==== Sys2Proof/Machine/Engines.lean ====
section
/-!
DEFINITION. What the commands need of an engine, variant by variant (40_commands.md R182): its parameters, `init_v`,
`next_v`, the jumps, the advance and the state vector (10_state.md R64, R65).
-/

namespace Sys2Proof.Machine

/-! ### Parameters of a variant (R182) -/

/-- VARIANT of an engine (R42). -/
def engineVariant : Engine → Variant
  | .splitmix64 _ => .splitmix64
  | .xoroshiro128p _ => .xoroshiro128p
  | .xoroshiro128pp _ => .xoroshiro128pp
  | .xoroshiro128ss _ => .xoroshiro128ss
  | .xoshiro256p _ => .xoshiro256p
  | .xoshiro256pp _ => .xoshiro256pp
  | .xoshiro256ss _ => .xoshiro256ss
  | .xoshiro512p _ => .xoshiro512p
  | .xoshiro512pp _ => .xoshiro512pp
  | .xoshiro512ss _ => .xoshiro512ss
  | .xoroshiro1024s _ => .xoroshiro1024s
  | .xoroshiro1024pp _ => .xoroshiro1024pp
  | .xoroshiro1024ss _ => .xoroshiro1024ss
  | .pcg32 _ => .pcg32
  | .pcg64 _ => .pcg64
  | .mt19937 _ => .mt19937
  | .mt19937w64 _ => .mt19937w64
  | .sfc64 _ => .sfc64
  | .jsf64 _ => .jsf64
  | .mwc128 _ => .mwc128
  | .mwc192 _ => .mwc192
  | .mwc256 _ => .mwc256
  | .gmwc128 _ => .gmwc128

/-- NSEED (R182). -/
def seedCount : Variant → Nat
  | .splitmix64 => 1
  | .xoroshiro128p | .xoroshiro128pp | .xoroshiro128ss => 2
  | .xoshiro256p | .xoshiro256pp | .xoshiro256ss => 4
  | .xoshiro512p | .xoshiro512pp | .xoshiro512ss => 8
  | .xoroshiro1024s | .xoroshiro1024pp | .xoroshiro1024ss => 16
  | .pcg32 => 2
  | .pcg64 => 4
  | .mt19937 | .mt19937w64 => 1
  | .sfc64 | .jsf64 => 1
  | .mwc128 => 1
  | .mwc192 => 2
  | .mwc256 => 3
  | .gmwc128 => 1

/-- EW, the width of a seed element (R162, R182). -/
def elementWidth (v : Variant) : Nat := if v = .mt19937 then 32 else 64

/-- NSV, the number of words of the state vector (R50, R182). -/
def stateWords : Variant → Nat
  | .splitmix64 => 1
  | .xoroshiro128p | .xoroshiro128pp | .xoroshiro128ss => 2
  | .xoshiro256p | .xoshiro256pp | .xoshiro256ss => 4
  | .xoshiro512p | .xoshiro512pp | .xoshiro512ss => 8
  | .xoroshiro1024s | .xoroshiro1024pp | .xoroshiro1024ss => 17
  | .pcg32 => 2
  | .pcg64 => 4
  | .mt19937 => 625
  | .mt19937w64 => 313
  | .sfc64 | .jsf64 => 4
  | .mwc128 => 2
  | .mwc192 => 3
  | .mwc256 => 4
  | .gmwc128 => 2

/-- NATIVE = 32: one native output has 32 bits (R182). -/
def native32 (v : Variant) : Bool := decide (v = .pcg32) || decide (v = .mt19937)

/-- The variant is MT19937 or MT19937_64. -/
def isMt (v : Variant) : Bool := decide (v = .mt19937) || decide (v = .mt19937w64)

/-- HAS_JUMP (R182). -/
def hasJump : Variant → Bool
  | .splitmix64 | .mt19937 | .mt19937w64 | .sfc64 | .jsf64 => false
  | .xoroshiro128p | .xoroshiro128pp | .xoroshiro128ss => true
  | .xoshiro256p | .xoshiro256pp | .xoshiro256ss => true
  | .xoshiro512p | .xoshiro512pp | .xoshiro512ss => true
  | .xoroshiro1024s | .xoroshiro1024pp | .xoroshiro1024ss => true
  | .pcg32 | .pcg64 => true
  | .mwc128 | .mwc192 | .mwc256 | .gmwc128 => true

/-- HAS_LONG_JUMP (R182): GMWC128 has none (R463). -/
def hasLongJump (v : Variant) : Bool := hasJump v && decide (v ≠ .gmwc128)

/-- HAS_ADVANCE (R182). -/
def hasAdvance (v : Variant) : Bool := decide (v = .pcg32) || decide (v = .pcg64)

/-! ### Seeding -/

/-- The first `n` elements as an array; an element the list lacks counts as 0 (none is lacking: R163, R165). -/
def seedArray (n : Nat) (u : List Word) : Vector Word n := Vector.ofFn fun i => u.getD i.val 0

/-- A freshly seeded 16-word state: p = 0 (R248). -/
def xoro1024Init (u : List Word) : Xoro1024 := { s := seedArray 16 u, p := 0 }

/-- `mt_genrand_MT19937` on the low 32 bits of an element (R162, R341). -/
def mt32Seeded (e : Word) : Mt 32 624 := mtGenrand mt32Params 624 (e.setWidth 32)

/-- `mt_genrand_MT19937_64` (R351). -/
def mt64Seeded (e : Word) : Mt 64 312 := mtGenrand mt64Params 312 e

/-- `mt_by_array_v(key)` for an MT variant (R342, R352). A key element of MT19937 is the low 32 bits (R162). Only called
for the two MT variants. -/
def mtKeyed (v : Variant) (key : List Word) : Engine :=
  if v = .mt19937 then .mt19937 (mtByArray mt32Params 624 (key.map fun x => x.setWidth 32))
  else .mt19937w64 (mtByArray mt64Params 312 key)

/-- `init_v(u[0..NSEED-1])` (R182); for the MT variants it is `mt_genrand_v(u[0])` (R166). -/
def initEngine (v : Variant) (u : List Word) : Engine :=
  match v with
  | .splitmix64 => .splitmix64 (u.getD 0 0)
  | .xoroshiro128p => .xoroshiro128p (seedArray 2 u)
  | .xoroshiro128pp => .xoroshiro128pp (seedArray 2 u)
  | .xoroshiro128ss => .xoroshiro128ss (seedArray 2 u)
  | .xoshiro256p => .xoshiro256p (seedArray 4 u)
  | .xoshiro256pp => .xoshiro256pp (seedArray 4 u)
  | .xoshiro256ss => .xoshiro256ss (seedArray 4 u)
  | .xoshiro512p => .xoshiro512p (seedArray 8 u)
  | .xoshiro512pp => .xoshiro512pp (seedArray 8 u)
  | .xoshiro512ss => .xoshiro512ss (seedArray 8 u)
  | .xoroshiro1024s => .xoroshiro1024s (xoro1024Init u)
  | .xoroshiro1024pp => .xoroshiro1024pp (xoro1024Init u)
  | .xoroshiro1024ss => .xoroshiro1024ss (xoro1024Init u)
  | .pcg32 => .pcg32 (pcg32Init (u.getD 0 0) (u.getD 1 0))
  | .pcg64 => .pcg64 (pcg64Init (u.getD 0 0) (u.getD 1 0) (u.getD 2 0) (u.getD 3 0))
  | .mt19937 => .mt19937 (mt32Seeded (u.getD 0 0))
  | .mt19937w64 => .mt19937w64 (mt64Seeded (u.getD 0 0))
  | .sfc64 => .sfc64 (sfcInit (u.getD 0 0))
  | .jsf64 => .jsf64 (jsfInit (u.getD 0 0))
  | .mwc128 => .mwc128 (mwcInit 1 u)
  | .mwc192 => .mwc192 (mwcInit 2 u)
  | .mwc256 => .mwc256 (mwcInit 3 u)
  | .gmwc128 => .gmwc128 (gmwcInit (u.getD 0 0))

/-! ### Output -/

/-- `next_v(S)` (R182): one native output, zero-extended to 64 bits, and the state it leaves. -/
def nextNative : Engine → Word × Engine
  | .splitmix64 x => ((splitMixNext x).1, .splitmix64 (splitMixNext x).2)
  | .xoroshiro128p s => (outXoro128p s, .xoroshiro128p (stepXoro128 s))
  | .xoroshiro128pp s => (outXoro128pp s, .xoroshiro128pp (stepXoro128pp s))
  | .xoroshiro128ss s => (outXoro128ss s, .xoroshiro128ss (stepXoro128 s))
  | .xoshiro256p s => (outXo256p s, .xoshiro256p (step256 s))
  | .xoshiro256pp s => (outXo256pp s, .xoshiro256pp (step256 s))
  | .xoshiro256ss s => (outXo256ss s, .xoshiro256ss (step256 s))
  | .xoshiro512p s => (outXo512p s, .xoshiro512p (step512 s))
  | .xoshiro512pp s => (outXo512pp s, .xoshiro512pp (step512 s))
  | .xoshiro512ss s => (outXo512ss s, .xoshiro512ss (step512 s))
  | .xoroshiro1024s s => (outXoro1024s s, .xoroshiro1024s (step1024 s))
  | .xoroshiro1024pp s => (outXoro1024pp s, .xoroshiro1024pp (step1024 s))
  | .xoroshiro1024ss s => (outXoro1024ss s, .xoroshiro1024ss (step1024 s))
  | .pcg32 s => ((pcg32Next s).1.setWidth 64, .pcg32 (pcg32Next s).2)
  | .pcg64 s => ((pcg64Next s).1, .pcg64 (pcg64Next s).2)
  | .mt19937 s => ((mt32Next s).1.setWidth 64, .mt19937 (mt32Next s).2)
  | .mt19937w64 s => ((mt64Next s).1, .mt19937w64 (mt64Next s).2)
  | .sfc64 s => ((sfcNext s).1, .sfc64 (sfcNext s).2)
  | .jsf64 s => ((jsfNext s).1, .jsf64 (jsfNext s).2)
  | .mwc128 s => (outMwc128 s, .mwc128 (mwcStep mwc128A s))
  | .mwc192 s => (outMwc192 s, .mwc192 (mwcStep mwc192A s))
  | .mwc256 s => (outMwc256 s, .mwc256 (mwcStep mwc256A s))
  | .gmwc128 s => ((gmwcNext s).1, .gmwc128 (gmwcNext s).2)

/-- `step_v(S)`: the state update of `next_v` (R11, R280). -/
def stepEngine (e : Engine) : Engine := (nextNative e).2

/-- `pack(o1, o2)` (R172). -/
def packOutputs (p : Raw64Pack) (o1 o2 : Word) : Word :=
  match p with
  | .lowFirst => o1 ||| (o2 <<< 32)
  | .highFirst => o2 ||| (o1 <<< 32)

/-- The raw 64-bit word NEXT returns and the state it leaves (R171). -/
def nextRaw (p : Raw64Pack) (e : Engine) : Word × Engine :=
  if native32 (engineVariant e) then
    let o1 := nextNative e
    let o2 := nextNative o1.2
    (packOutputs p o1.1 o2.1, o2.2)
  else nextNative e

/-! ### Jumps -/

/-- The state JUMP leaves (R174); `none` where the variant defines no jump. -/
def jumpEngine : Engine → Option Engine
  | .splitmix64 _ => none
  | .xoroshiro128p s => some (.xoroshiro128p (gf2Jump stepXoro128 jumpXoro128 s))
  | .xoroshiro128pp s => some (.xoroshiro128pp (gf2Jump stepXoro128pp jumpXoro128pp s))
  | .xoroshiro128ss s => some (.xoroshiro128ss (gf2Jump stepXoro128 jumpXoro128 s))
  | .xoshiro256p s => some (.xoshiro256p (gf2Jump step256 jumpXo256 s))
  | .xoshiro256pp s => some (.xoshiro256pp (gf2Jump step256 jumpXo256 s))
  | .xoshiro256ss s => some (.xoshiro256ss (gf2Jump step256 jumpXo256 s))
  | .xoshiro512p s => some (.xoshiro512p (gf2Jump step512 jumpXo512 s))
  | .xoshiro512pp s => some (.xoshiro512pp (gf2Jump step512 jumpXo512 s))
  | .xoshiro512ss s => some (.xoshiro512ss (gf2Jump step512 jumpXo512 s))
  | .xoroshiro1024s s => some (.xoroshiro1024s (gf2Jump1024 jumpXoro1024 s))
  | .xoroshiro1024pp s => some (.xoroshiro1024pp (gf2Jump1024 jumpXoro1024 s))
  | .xoroshiro1024ss s => some (.xoroshiro1024ss (gf2Jump1024 jumpXoro1024 s))
  | .pcg32 s => some (.pcg32 (lcgAdvance pcgMult32 Config.pcg32JumpDelta s))
  | .pcg64 s => some (.pcg64 (lcgAdvance pcgMult64 Config.pcg64JumpDelta s))
  | .mt19937 _ => none
  | .mt19937w64 _ => none
  | .sfc64 _ => none
  | .jsf64 _ => none
  | .mwc128 s => some (.mwc128 (mwcJump mwc128A mwc128JumpConst s))
  | .mwc192 s => some (.mwc192 (mwcJump mwc192A mwc192JumpConst s))
  | .mwc256 s => some (.mwc256 (mwcJump mwc256A mwc256JumpConst s))
  | .gmwc128 s => some (.gmwc128 (gmwcJump gmwcJumpConst s))

/-- The state LONG_JUMP leaves (R175); `none` where the variant defines no long jump. -/
def longJumpEngine : Engine → Option Engine
  | .splitmix64 _ => none
  | .xoroshiro128p s => some (.xoroshiro128p (gf2Jump stepXoro128 longJumpXoro128 s))
  | .xoroshiro128pp s => some (.xoroshiro128pp (gf2Jump stepXoro128pp longJumpXoro128pp s))
  | .xoroshiro128ss s => some (.xoroshiro128ss (gf2Jump stepXoro128 longJumpXoro128 s))
  | .xoshiro256p s => some (.xoshiro256p (gf2Jump step256 longJumpXo256 s))
  | .xoshiro256pp s => some (.xoshiro256pp (gf2Jump step256 longJumpXo256 s))
  | .xoshiro256ss s => some (.xoshiro256ss (gf2Jump step256 longJumpXo256 s))
  | .xoshiro512p s => some (.xoshiro512p (gf2Jump step512 longJumpXo512 s))
  | .xoshiro512pp s => some (.xoshiro512pp (gf2Jump step512 longJumpXo512 s))
  | .xoshiro512ss s => some (.xoshiro512ss (gf2Jump step512 longJumpXo512 s))
  | .xoroshiro1024s s => some (.xoroshiro1024s (gf2Jump1024 longJumpXoro1024 s))
  | .xoroshiro1024pp s => some (.xoroshiro1024pp (gf2Jump1024 longJumpXoro1024 s))
  | .xoroshiro1024ss s => some (.xoroshiro1024ss (gf2Jump1024 longJumpXoro1024 s))
  | .pcg32 s => some (.pcg32 (lcgAdvance pcgMult32 Config.pcg32LongJumpDelta s))
  | .pcg64 s => some (.pcg64 (lcgAdvance pcgMult64 Config.pcg64LongJumpDelta s))
  | .mt19937 _ => none
  | .mt19937w64 _ => none
  | .sfc64 _ => none
  | .jsf64 _ => none
  | .mwc128 s => some (.mwc128 (mwcJump mwc128A mwc128LongJumpConst s))
  | .mwc192 s => some (.mwc192 (mwcJump mwc192A mwc192LongJumpConst s))
  | .mwc256 s => some (.mwc256 (mwcJump mwc256A mwc256LongJumpConst s))
  | .gmwc128 _ => none

/-! ### The state vector -/

/-- `SV_v(S)[0..NSV-1]` (R64); a narrower word is zero-extended. -/
def stateVector : Engine → List Word
  | .splitmix64 x => [x]
  | .xoroshiro128p s | .xoroshiro128pp s | .xoroshiro128ss s => s.toList
  | .xoshiro256p s | .xoshiro256pp s | .xoshiro256ss s => s.toList
  | .xoshiro512p s | .xoshiro512pp s | .xoshiro512ss s => s.toList
  | .xoroshiro1024s x | .xoroshiro1024pp x | .xoroshiro1024ss x => x.s.toList ++ [x.p.setWidth 64]
  | .pcg32 s => [s.state, s.inc]
  | .pcg64 s =>
    [s.state.setWidth 64, (s.state >>> 64).setWidth 64, s.inc.setWidth 64, (s.inc >>> 64).setWidth 64]
  | .mt19937 s => s.mt.toList.map (fun x => x.setWidth 64) ++ [BitVec.ofNat 64 s.mti.val]
  | .mt19937w64 s => s.mt.toList ++ [BitVec.ofNat 64 s.mti.val]
  | .sfc64 s => [s.a, s.b, s.c, s.counter]
  | .jsf64 s => [s.a, s.b, s.c, s.d]
  | .mwc128 s => s.w.toList ++ [s.c]
  | .mwc192 s => s.w.toList ++ [s.c]
  | .mwc256 s => s.w.toList ++ [s.c]
  | .gmwc128 s => [s.x, s.c]

/-- An array with word j replaced, if there is one. -/
def arrayWrite {n : Nat} (s : Vector Word n) (j : Nat) (v : Word) : Option (Vector Word n) :=
  if h : j < n then some (s.set j v) else none

/-- A 16-word state with SV[j] replaced: p takes 0 to 15 (R65). -/
def xoro1024Write (x : Xoro1024) (j : Nat) (v : Word) : Option Xoro1024 :=
  if h : j < 16 then some { x with s := x.s.set j v }
  else if j = 16 ∧ v.toNat ≤ 15 then some { x with p := v.setWidth 4 }
  else none

/-- An MT state with SV[j] replaced: a word takes a value of its width, mti takes 0 to N (R65). -/
def mtWrite {w n : Nat} (s : Mt w n) (j : Nat) (v : Word) : Option (Mt w n) :=
  if h : j < n then (if v.toNat < 2 ^ w then some { s with mt := s.mt.set j (v.setWidth w) } else none)
  else if j = n ∧ v.toNat ≤ n then some { s with mti := Fin.ofNat (n + 1) v.toNat }
  else none

/-- An MWC state with SV[j] replaced (R64). -/
def mwcWrite {r : Nat} (s : Mwc r) (j : Nat) (v : Word) : Option (Mwc r) :=
  if h : j < r then some { s with w := s.w.set j v }
  else if j = r then some { s with c := v }
  else none

/-- The low or the high half of a 128-bit value replaced (R64). -/
def setHalf (x : Word128) (high : Bool) (v : Word) : Word128 :=
  if high then v ++ x.setWidth 64 else (x >>> 64).setWidth 64 ++ v

/-- S with `SV_v(S)[j] <- v`; `none` where j >= NSV or the field cannot hold v (R65). -/
def writeStateVector (e : Engine) (j : Nat) (v : Word) : Option Engine :=
  match e with
  | .splitmix64 _ => if j = 0 then some (.splitmix64 v) else none
  | .xoroshiro128p s => (arrayWrite s j v).map .xoroshiro128p
  | .xoroshiro128pp s => (arrayWrite s j v).map .xoroshiro128pp
  | .xoroshiro128ss s => (arrayWrite s j v).map .xoroshiro128ss
  | .xoshiro256p s => (arrayWrite s j v).map .xoshiro256p
  | .xoshiro256pp s => (arrayWrite s j v).map .xoshiro256pp
  | .xoshiro256ss s => (arrayWrite s j v).map .xoshiro256ss
  | .xoshiro512p s => (arrayWrite s j v).map .xoshiro512p
  | .xoshiro512pp s => (arrayWrite s j v).map .xoshiro512pp
  | .xoshiro512ss s => (arrayWrite s j v).map .xoshiro512ss
  | .xoroshiro1024s x => (xoro1024Write x j v).map .xoroshiro1024s
  | .xoroshiro1024pp x => (xoro1024Write x j v).map .xoroshiro1024pp
  | .xoroshiro1024ss x => (xoro1024Write x j v).map .xoroshiro1024ss
  | .pcg32 s =>
    match j with
    | 0 => some (.pcg32 { s with state := v })
    | 1 => some (.pcg32 { s with inc := v })
    | _ => none
  | .pcg64 s =>
    match j with
    | 0 => some (.pcg64 { s with state := setHalf s.state false v })
    | 1 => some (.pcg64 { s with state := setHalf s.state true v })
    | 2 => some (.pcg64 { s with inc := setHalf s.inc false v })
    | 3 => some (.pcg64 { s with inc := setHalf s.inc true v })
    | _ => none
  | .mt19937 s => (mtWrite s j v).map .mt19937
  | .mt19937w64 s => (mtWrite s j v).map .mt19937w64
  | .sfc64 s =>
    match j with
    | 0 => some (.sfc64 { s with a := v })
    | 1 => some (.sfc64 { s with b := v })
    | 2 => some (.sfc64 { s with c := v })
    | 3 => some (.sfc64 { s with counter := v })
    | _ => none
  | .jsf64 s =>
    match j with
    | 0 => some (.jsf64 { s with a := v })
    | 1 => some (.jsf64 { s with b := v })
    | 2 => some (.jsf64 { s with c := v })
    | 3 => some (.jsf64 { s with d := v })
    | _ => none
  | .mwc128 s => (mwcWrite s j v).map .mwc128
  | .mwc192 s => (mwcWrite s j v).map .mwc192
  | .mwc256 s => (mwcWrite s j v).map .mwc256
  | .gmwc128 s =>
    match j with
    | 0 => some (.gmwc128 { s with x := v })
    | 1 => some (.gmwc128 { s with c := v })
    | _ => none

end Sys2Proof.Machine
end

