-- ==== Sys2Proof/Machine/Operands.lean ====
section
/-!
DEFINITION. The operands of the commands (30_encoding.md R125, R135): OPND words, the seed bytes and elements of
SEED_BYTES (20_memory.md R97, 40_commands.md R167), the truncation of an element (R162), the 64- and 128-bit deltas
(R98, R176).
-/

namespace Sys2Proof.Machine

/-- The operands OPND[0..n-1] that a command reads, in order (R125, R135). -/
def readOpnds (s : State) (n : Nat) : List Word := (List.range n).map s.opnd

/-- `trunc_E(x)` as a 64-bit value (R162): E is the element width, 32 or 64. -/
def truncElement (ew : Nat) (x : Word) : Word := BitVec.ofNat 64 (x.toNat % 2 ^ ew)

/-- The number of operand registers that hold `cnt` bytes: ceil(cnt/8) (R125). -/
def byteOperandCount (cnt : Nat) : Nat := (cnt + 7) / 8

/-- Seed byte i is `OPND[i div 8][8*(i mod 8)+7 : 8*(i mod 8)]` (R97). -/
def seedByte (ws : List Word) (i : Nat) : Byte := byteOf (ws.getD (i / 8) 0) (i % 8)

/-- The `cnt` seed bytes held by the operands `ws` (R97). -/
def seedBytesOf (ws : List Word) (cnt : Nat) : List Byte := (List.range cnt).map (seedByte ws)

/-- Zero bytes complete the last element of `b` bytes (R167). -/
def completeBytes (b : Nat) (bytes : List Byte) : List Byte :=
  if bytes.length % b = 0 then bytes else bytes ++ List.replicate (b - bytes.length % b) 0

/-- Element j: `sum over i < b of byte[j*b + i] * 2^(8i)` (R97). -/
def byteElement (b : Nat) (bytes : List Byte) (j : Nat) : Word :=
  BitVec.ofNat 64 (((List.range b).map fun i => (bytes.getD (j * b + i) 0).toNat * 2 ^ (8 * i)).sum)

/-- The elements of `b` bytes each that `bytes` holds (R167). -/
def byteElements (b : Nat) (bytes : List Byte) : List Word :=
  (List.range (bytes.length / b)).map (byteElement b bytes)

/-- PCG64's delta: OPND[0] is the less significant word (R98, R176). -/
def delta128 (lo hi : Word) : Word128 := hi ++ lo

end Sys2Proof.Machine
end

