-- ==== Sys2Proof/Machine/Jumps.lean ====
section
/-!
DEFINITION. The jump commands JUMP, LONG_JUMP and ADVANCE (40_commands.md R174 to R176).
-/

namespace Sys2Proof.Machine

/-- The engine, or UnsupportedOperation where the variant does not define the operation (R483). -/
def orUnsupported (e : Option Engine) : Except ErrorCode Engine :=
  match e with
  | some e => .ok e
  | none => raise .unsupportedOperation

/-- The rule of JUMP (R174). -/
def jumpBody (s : State) (inst : BitVec 4) : Body := do
  let e ← engineOf s inst
  let jumped ← orUnsupported (jumpEngine e)
  return s.setEngine inst jumped

/-- JUMP (R174). -/
def execJump (inst : BitVec 4) (s : State) : Host.Outcome State Fault Refusal := finish s (jumpBody s inst)

/-- The rule of LONG_JUMP (R175). -/
def longJumpBody (s : State) (inst : BitVec 4) : Body := do
  let e ← engineOf s inst
  let jumped ← orUnsupported (longJumpEngine e)
  return s.setEngine inst jumped

/-- LONG_JUMP (R175). -/
def execLongJump (inst : BitVec 4) (s : State) : Host.Outcome State Fault Refusal := finish s (longJumpBody s inst)

/-- The engine ADVANCE leaves (R176). Only the PCG variants read operands, after the capability check (R490). -/
def advanceEngine (s : State) (e : Engine) : Except ErrorCode Engine :=
  match e with
  | .pcg32 g => .ok (.pcg32 (lcgAdvance pcgMult32 (s.opnd 0) g))
  | .pcg64 g => .ok (.pcg64 (lcgAdvance pcgMult64 (delta128 (s.opnd 0) (s.opnd 1)) g))
  | _ => raise .unsupportedOperation

/-- The rule of ADVANCE (R176). -/
def advanceBody (s : State) (inst : BitVec 4) : Body := do
  let e ← engineOf s inst
  let advanced ← advanceEngine s e
  return s.setEngine inst advanced

/-- ADVANCE (R176). -/
def execAdvance (inst : BitVec 4) (s : State) : Host.Outcome State Fault Refusal := finish s (advanceBody s inst)

end Sys2Proof.Machine
end

