-- ==== Sys2Proof/Machine/Manage.lean ====
section
/-!
DEFINITION. Instance management and state access: CLONE, STATE_READ, STATE_WRITE, QUERY and NOP (40_commands.md R177 to
R181).
-/

namespace Sys2Proof.Machine

/-- NOP (R181): ERR <- 0, and nothing else. -/
def execNop (s : State) : Host.Outcome State Fault Refusal := finish s (.ok s)

/-- The rule of CLONE (R177); both instances must exist (check 5 of R490). -/
def cloneBody (s : State) (inst dst : BitVec 4) : Body := do
  checkInst s inst
  checkInst s dst
  let e ← seededEngine s inst
  return if dst = inst then s else s.setEngine dst e

/-- CLONE (R177). -/
def execClone (inst dst : BitVec 4) (s : State) : Host.Outcome State Fault Refusal := finish s (cloneBody s inst dst)

/-- The rule of STATE_READ (R178). -/
def stateReadBody (s : State) (inst : BitVec 4) : Body := do
  let e ← engineOf s inst
  match (stateVector e)[(s.opnd 0).toNat]? with
  | some v => return s.setRes v
  | none => raise .invalidStateAccess

/-- STATE_READ (R178). -/
def execStateRead (inst : BitVec 4) (s : State) : Host.Outcome State Fault Refusal := finish s (stateReadBody s inst)

/-- The rule of STATE_WRITE (R179). -/
def stateWriteBody (s : State) (inst : BitVec 4) : Body := do
  let e ← engineOf s inst
  match writeStateVector e (s.opnd 0).toNat (s.opnd 1) with
  | some written => return s.setEngine inst written
  | none => raise .invalidStateAccess

/-- STATE_WRITE (R179). -/
def execStateWrite (inst : BitVec 4) (s : State) : Host.Outcome State Fault Refusal := finish s (stateWriteBody s inst)

/-- The word QUERY answers for a variant (R180): bits [5:0] the code, [31:16] NSV, 32 NATIVE = 32, 33 HAS_JUMP, 34
HAS_LONG_JUMP, 35 HAS_ADVANCE, the others 0. -/
def queryWord (v : Variant) : Word :=
  (0 : BitVec 28) ++ BitVec.ofBool (hasAdvance v) ++ BitVec.ofBool (hasLongJump v) ++ BitVec.ofBool (hasJump v)
    ++ BitVec.ofBool (native32 v) ++ BitVec.ofNat 16 (stateWords v) ++ (0 : BitVec 10) ++ variantCode v

/-- The rule of QUERY (R180). -/
def queryBody (s : State) (inst : BitVec 4) : Body := do
  let e ← engineOf s inst
  return s.setRes (queryWord (engineVariant e))

/-- QUERY (R180). -/
def execQuery (inst : BitVec 4) (s : State) : Host.Outcome State Fault Refusal := finish s (queryBody s inst)

end Sys2Proof.Machine
end

