-- ==== Sys2Proof/Machine/Output.lean ====
section
/-!
DEFINITION. The output commands NEXT and NEXT32 (40_commands.md R171 to R173).
-/

namespace Sys2Proof.Machine

/-- The rule of NEXT (R171). -/
def nextBody (s : State) (inst : BitVec 4) : Body := do
  let e ← engineOf s inst
  let drawn := nextRaw s.params.raw64Pack e
  return (s.setEngine inst drawn.2).setRes drawn.1

/-- NEXT (R171). -/
def execNext (inst : BitVec 4) (s : State) : Host.Outcome State Fault Refusal := finish s (nextBody s inst)

/-- The rule of NEXT32 (R173). -/
def next32Body (s : State) (inst : BitVec 4) : Body := do
  let e ← engineOf s inst
  check (native32 (engineVariant e)) .unsupportedOperation
  let drawn := nextNative e
  return (s.setEngine inst drawn.2).setRes drawn.1

/-- NEXT32 (R173). -/
def execNext32 (inst : BitVec 4) (s : State) : Host.Outcome State Fault Refusal := finish s (next32Body s inst)

end Sys2Proof.Machine
end

