-- ==== Sys2Proof/WellFormed.lean ====
section
/-!
DEFINITION. The range checks a command word passes after decoding (30_encoding.md R124, R133, R136; checks 5 and 6a of
60_exceptions.md R490), as a check on the instruction: it depends on NINST and on no engine state (R486).
-/

namespace Sys2Proof

/-- The field is the number of an instance the block has (R124). -/
def instInRange (ninst : Nat) (inst : BitVec 4) : Bool := decide (inst.toNat < ninst)

/-- The field is an assigned variant code (R133). -/
def varAssigned (var : BitVec 6) : Bool := (variantOfCode? var).isSome

/-- The instruction passes the range checks of a block with `ninst` instances (R124, R133). NOP uses no field. -/
def Instr.wellFormed (ninst : Nat) : Instr → Bool
  | .nop => true
  | .seed var _ _ _ inst => instInRange ninst inst && varAssigned var
  | .seedBytes var _ _ _ inst => instInRange ninst inst && varAssigned var
  | .seedKey var _ _ inst => instInRange ninst inst && varAssigned var
  | .seedEntropy var inst => instInRange ninst inst && varAssigned var
  | .next inst => instInRange ninst inst
  | .next32 inst => instInRange ninst inst
  | .jump inst => instInRange ninst inst
  | .longJump inst => instInRange ninst inst
  | .advance inst => instInRange ninst inst
  | .clone inst dst => instInRange ninst inst && instInRange ninst dst
  | .stateRead inst => instInRange ninst inst
  | .stateWrite inst => instInRange ninst inst
  | .query inst => instInRange ninst inst

end Sys2Proof
end

