-- ==== Sys2Proof/Machine/Seeding.lean ====
section
/-!
DEFINITION. The seeding commands SEED, SEED_BYTES, SEED_KEY and SEED_ENTROPY (40_commands.md R161 to R170), with the
checks of 60_exceptions.md R490 in its order.
-/

namespace Sys2Proof.Machine

/-- Every element is 0; no element at all counts as all zero (R164). -/
def allZero (e : List Word) : Bool := e.all fun x => decide (x = 0)

/-- The elements of a seed, truncated or completed to the `n` that `init_v` takes (R165). -/
def truncateOrPad (n : Nat) (e : List Word) : List Word :=
  if e.length ≥ n then e.take n else e ++ splitMixStream (e.getLastD 0) (n - e.length)

/-- The length rule (R163): without LOK the number of elements is NSEED, which is 1 for the MT variants. -/
def lengthOk (v : Variant) (n : Nat) (lok : Bool) : Bool := decide (n = seedCount v) || lok

/-- The checked elements of the zero rule (R164): all for the MT variants, else those that survive truncation. -/
def checkedElements (v : Variant) (e : List Word) : List Word := if isMt v then e else e.take (seedCount v)

/-- The engine that elements which pass the checks make (R163, R166). -/
def seededFrom (v : Variant) (e : List Word) : Engine :=
  if isMt v then
    match e with
    | [] => initEngine v [0]
    | [x] => initEngine v [x]
    | _ :: _ :: _ => mtKeyed v e
  else initEngine v (truncateOrPad (seedCount v) e)

/-- The common seeding path (R166): the length rule, then the zero rule, then the new state. -/
def seedCommon (v : Variant) (e : List Word) (zok lok : Bool) : Except ErrorCode Engine := do
  check (lengthOk v e.length lok) .invalidSeed
  check (!allZero (checkedElements v e) || zok) .invalidSeed
  return seededFrom v e

/-- Checks 5 and 6a of R490: the instance exists (R124) and VAR is assigned (R133). -/
def seedVariant (s : State) (var : BitVec 6) (inst : BitVec 4) : Except ErrorCode Variant := do
  checkInst s inst
  match variantOfCode? var with
  | some v => return v
  | none => raise .illegalCommand

/-- The rule of SEED (R161). -/
def seedBody (s : State) (var : BitVec 6) (zok lok : Bool) (cnt : BitVec 10) (inst : BitVec 4) : Body := do
  let v ← seedVariant s var inst
  let ws := readOpnds s cnt.toNat
  let e ← seedCommon v (ws.map (truncElement (elementWidth v))) zok lok
  return s.setEngine inst e

/-- SEED (R161). -/
def execSeed (var : BitVec 6) (zok lok : Bool) (cnt : BitVec 10) (inst : BitVec 4) (s : State) :
    Host.Outcome State Fault Refusal :=
  finish s (seedBody s var zok lok cnt inst)

/-- The rule of SEED_BYTES (R167): B is the element size in bytes. -/
def seedBytesBody (s : State) (var : BitVec 6) (zok lok : Bool) (cnt : BitVec 10) (inst : BitVec 4) : Body := do
  let v ← seedVariant s var inst
  let b := elementWidth v / 8
  let ws := readOpnds s (byteOperandCount cnt.toNat)
  check (decide (cnt.toNat % b = 0) || lok) .invalidSeed
  let e ← seedCommon v (byteElements b (completeBytes b (seedBytesOf ws cnt.toNat))) zok lok
  return s.setEngine inst e

/-- SEED_BYTES (R167). -/
def execSeedBytes (var : BitVec 6) (zok lok : Bool) (cnt : BitVec 10) (inst : BitVec 4) (s : State) :
    Host.Outcome State Fault Refusal :=
  finish s (seedBytesBody s var zok lok cnt inst)

/-- The rule of SEED_KEY (R168; checks 6b and 6c of R490 come before the operands are read). -/
def seedKeyBody (s : State) (var : BitVec 6) (zok : Bool) (cnt : BitVec 10) (inst : BitVec 4) : Body := do
  let v ← seedVariant s var inst
  check (isMt v) .unsupportedOperation
  check (decide (cnt ≠ 0)) .invalidSeed
  let ws := readOpnds s cnt.toNat
  let key := ws.map (truncElement (elementWidth v))
  check (!allZero key || zok) .invalidSeed
  return s.setEngine inst (mtKeyed v key)

/-- SEED_KEY (R168). -/
def execSeedKey (var : BitVec 6) (zok : Bool) (cnt : BitVec 10) (inst : BitVec 4) (s : State) :
    Host.Outcome State Fault Refusal :=
  finish s (seedKeyBody s var zok cnt inst)

/-- The end of SEED_ENTROPY on variant `v`: one draw per element, in order, then the common path with ZOK = 0 and
LOK = 0 (R169). The draws have been taken from the port whether or not the seed is accepted (log entry 9), so the
command ends from the state after them. -/
def seedFromEntropy (v : Variant) (inst : BitVec 4) (s : State) : Host.Outcome State Fault Refusal :=
  let e := (s.entropyWords (seedCount v)).map (truncElement (elementWidth v))
  let t := s.takeDraws (seedCount v)
  finish t ((seedCommon v e false false).map fun g => t.setEngine inst g)

/-- SEED_ENTROPY (R169). A command refused by checks 5 or 6a takes no draw. -/
def execSeedEntropy (var : BitVec 6) (inst : BitVec 4) (s : State) : Host.Outcome State Fault Refusal :=
  match seedVariant s var inst with
  | .ok v => seedFromEntropy v inst s
  | .error e => finish s (.error e)

end Sys2Proof.Machine
end

