-- ==== Sys2Proof/Machine/Dispatch.lean ====
section
/-!
DEFINITION. The dispatch: one arm per command, each one call of its meaning (40_commands.md R160).
-/

namespace Sys2Proof.Machine

def exec (i : Instr) (s : State) : Host.Outcome State Fault Refusal :=
  match i with
  | .nop => Sys2Proof.Machine.execNop s
  | .seed var zok lok cnt inst => Sys2Proof.Machine.execSeed var zok lok cnt inst s
  | .seedBytes var zok lok cnt inst => Sys2Proof.Machine.execSeedBytes var zok lok cnt inst s
  | .seedKey var zok cnt inst => Sys2Proof.Machine.execSeedKey var zok cnt inst s
  | .seedEntropy var inst => Sys2Proof.Machine.execSeedEntropy var inst s
  | .next inst => Sys2Proof.Machine.execNext inst s
  | .next32 inst => Sys2Proof.Machine.execNext32 inst s
  | .jump inst => Sys2Proof.Machine.execJump inst s
  | .longJump inst => Sys2Proof.Machine.execLongJump inst s
  | .advance inst => Sys2Proof.Machine.execAdvance inst s
  | .clone inst dst => Sys2Proof.Machine.execClone inst dst s
  | .stateRead inst => Sys2Proof.Machine.execStateRead inst s
  | .stateWrite inst => Sys2Proof.Machine.execStateWrite inst s
  | .query inst => Sys2Proof.Machine.execQuery inst s

end Sys2Proof.Machine
end

