-- ==== Sys2Proof/Machine/Execute.lean ====
section
/-!
DEFINITION. Executing the word written to CMD (40_commands.md R160): decode it, and run the command or refuse the word.
-/

namespace Sys2Proof.Machine

/-- `execute(w)` and the end of the command (R160). A word that decodes to no command is refused with IllegalCommand
(R486, checks 1 to 3 of R490). -/
def runCommand (s : State) (w : Word) : Host.Outcome State Fault Refusal :=
  match decode w with
  | .ok i => exec i s
  | .error _ => .next (s.refuse .illegalCommand)

/-- The state with command word `cmd` accepted (R38), and no event of the host landing before it completes. -/
def State.withCommand (s : State) (cmd : Word) : State :=
  { s with running := some cmd, inbox := s.inbox.map fun e => { e with early := false } }

end Sys2Proof.Machine
end

