-- ==== Sys2Proof/Machine/Window.lean ====
section
/-!
DEFINITION. The register window (20_memory.md R90 to R102): what a host read answers, what a host write does, the reset
input (70_reset_and_hazards.md R520), and which event of the host completes while a command is executing (R102, R530).
-/

namespace Sys2Proof.Machine

/-- The registers the window holds (R91). -/
inductive WindowReg where
  | cmd
  | status
  | res
  | opnd (k : Nat)
  | reserved
deriving DecidableEq, Repr

/-- The register map: the register at an 8-byte aligned window offset (R91). -/
def windowReg (off : Nat) : WindowReg :=
  if off = 0x0000 then .cmd
  else if off = 0x0008 then .status
  else if off = 0x0010 then .res
  else if 0x1000 ≤ off ∧ off < 0x1000 + 8 * Config.opndDepth then .opnd ((off - 0x1000) / 8)
  else .reserved

/-- The window offset of a host address; `none` outside the window, which the block does not decode (R90, R91). -/
def windowOffset (p : Params) (addr : Nat) : Option Nat :=
  if p.blockBase ≤ addr ∧ addr < p.blockBase + Config.windowSize then some (addr - p.blockBase) else none

/-- The register an access reaches. It must lie in the window, and be 8 bytes wide and aligned (R92). -/
def accessReg (s : State) (addr width : Nat) : Except Fault WindowReg :=
  match windowOffset s.params addr with
  | none => .error (.outsideWindow addr)
  | some off => if width = 8 ∧ off % 8 = 0 then .ok (windowReg off) else .error (.busError off width)

/-- The value a read of a register returns (R91, R93, R94). An OPND register not written since reset answers the free
value it holds (log entry 3). -/
def regValue (s : State) : WindowReg → Word
  | .cmd => 0
  | .status => statusWord s
  | .res => s.res
  | .opnd k => s.opnd k
  | .reserved => 0

/-- What a write to a register does (R91, R93, R94): CMD takes a command and BUSY becomes 1 (R38, R160), OPND stores,
any other write is ignored. -/
def regWrite (s : State) (v : Word) : WindowReg → State
  | .cmd => { s with running := some v }
  | .status => s
  | .res => s
  | .opnd k => s.writeOpnd k v
  | .reserved => s

/-- The block answers a host read with `v`. -/
def State.reply (s : State) (v : Word) : State := { s with replies := s.replies ++ [v] }

/-- A host read (R91, R92). It changes no state of the block (R95). -/
def hostRead (s : State) (addr width : Nat) : Host.Outcome State Fault Refusal :=
  match accessReg s addr width with
  | .error f => .fault f
  | .ok r => .next (s.reply (regValue s r))

/-- A host write (R91, R92). -/
def hostWrite (s : State) (addr width : Nat) (v : Word) : Host.Outcome State Fault Refusal :=
  match accessReg s addr width with
  | .error f => .fault f
  | .ok r => .next (regWrite s v r)

/-- The reset input (R520): every piece of the block's state takes its reset value in one step, and a command in
execution is abandoned. OPND is unspecified again: its free values are those of the next reset (log entry 3). The wired
parameters stay, and so do the model's own fields, which are the host's and the platform's (log entry 11). -/
def State.resetBlock (s : State) : State :=
  { State.resetWith s.params s.ninst with
    inbox := s.inbox
    replies := s.replies
    draws := s.draws
    resets := s.resets + 1 }

/-- The block serves one act of the host or the platform (R550). -/
def serve (s : State) : HostAct → Host.Outcome State Fault Refusal
  | .read addr width => hostRead s addr width
  | .write addr width v => hostWrite s addr width v
  | .reset => .next s.resetBlock

/-- The act is a read of STATUS, the one access that completes while BUSY = 1 (R102). -/
def isStatusRead (s : State) : HostAct → Bool
  | .read addr width => decide (accessReg s addr width = .ok .status)
  | .write .. => false
  | .reset => false

/-- The event takes place while the command in execution has not completed: a STATUS read (R102), or reset (R520), that
reaches the block then. Every other access is held (R102). -/
def landsWhileBusy (s : State) (e : HostEvent) : Bool :=
  e.early && (isStatusRead s e.act || decide (e.act = .reset))

end Sys2Proof.Machine
end

