-- ==== Sys2Proof/Machine/Step.lean ====
section
/-!
DEFINITION. One step of the block. While a command is executing (BUSY = 1) the block answers a STATUS read that arrives,
is reset, or completes the command (20_memory.md R102, 70_reset_and_hazards.md R520, R530, R532). Otherwise it serves
the next event of the host (R101), and with none it holds its state (R507).
-/

namespace Sys2Proof.Machine

def step (s : State) : Host.Outcome State Fault Refusal :=
  match s.running, s.inbox with
  | none, [] => .next s
  | none, e :: rest => serve { s with inbox := rest } e.act
  | some w, [] => runCommand s w
  | some w, e :: rest => if landsWhileBusy s e then serve { s with inbox := rest } e.act else runCommand s w

/-- `s` with the opcode-table row's word written to CMD and accepted: the next step executes it. -/
def State.withFetchWord (s : State) (nbits w : Nat) : State := s.withCommand (BitVec.ofNat 64 (w % 2 ^ nbits))

end Sys2Proof.Machine
end

