-- ==== Sys2Proof/Safety.lean ====
section
/-!
DEFINITION. What counts as a sound state of the block, in the terms the statements use, and runs of commands.
-/

namespace Sys2Proof.Machine

/-- The stored bytes are in canonical form and lie in the OPND range of the window (R91). -/
def State.memOk (s : State) : Bool :=
  Memory.wf s.mem && s.mem.all fun c => decide (0x1000 ≤ c.1) && decide (c.1 < 0x3000)

/-- No OPND register is half written (R96, R99): of its eight bytes all are stored or none is. -/
def State.untorn (s : State) : Bool :=
  (List.range Config.opndDepth).all fun k => (List.range 8).all fun j =>
    s.opndWritten k == (Memory.readByte s.mem (opndOffset k + j)).isSome

/-- STATUS.ERR holds a code the block writes (R481): never 3, never 7 to 15. -/
def State.errOk (s : State) : Bool := decide (s.err ∈ ([0, 1, 2, 4, 5, 6] : List (BitVec 4)))

/-- An error that ERR shows has set STICKY (R37). -/
def State.stickyOk (s : State) : Bool := decide (s.err = 0) || s.sticky

/-- NINST is 1 to 16 (R8). -/
def State.instsOk (s : State) : Bool := decide (1 ≤ s.ninst) && decide (s.ninst ≤ Config.maxInsts)

/-- BLOCK_BASE is a multiple of the window's size (R90). -/
def State.baseOk (s : State) : Bool := decide (s.params.blockBase % Config.windowSize = 0)

/-- The invariant of the block: what every state reached from reset satisfies. -/
abbrev State.Inv (s : State) : Prop :=
  s.memOk = true ∧ s.untorn = true ∧ s.errOk = true ∧ s.stickyOk = true ∧ s.instsOk = true ∧ s.baseOk = true

/-- The instance whose state a command may write (R41): INST, or CLONE's DST. -/
def targetOf : Instr → Option (BitVec 4)
  | .nop => none
  | .seed _ _ _ _ inst => some inst
  | .seedBytes _ _ _ _ inst => some inst
  | .seedKey _ _ _ inst => some inst
  | .seedEntropy _ inst => some inst
  | .next inst => some inst
  | .next32 inst => some inst
  | .jump inst => some inst
  | .longJump inst => some inst
  | .advance inst => some inst
  | .clone _ dst => some dst
  | .stateRead inst => some inst
  | .stateWrite inst => some inst
  | .query inst => some inst

/-- The commands that may follow a CLONE in a sequence "applied to" an instance (R184): every command but the seeding
ones, one instruction for each instance. CLONE is here in its three shapes: from the instance to another, from another to
the instance, and onto itself. -/
inductive EngineCommand where
  | nop
  | next
  | next32
  | jump
  | longJump
  | advance
  | cloneTo (dst : BitVec 4)
  | cloneFrom (src : BitVec 4)
  | cloneSelf
  | stateRead
  | stateWrite
  | query
deriving DecidableEq, Repr

/-- The command applied to an instance. -/
def EngineCommand.on : EngineCommand → BitVec 4 → Instr
  | .nop, _ => .nop
  | .next, i => .next i
  | .next32, i => .next32 i
  | .jump, i => .jump i
  | .longJump, i => .longJump i
  | .advance, i => .advance i
  | .cloneTo dst, i => .clone i dst
  | .cloneFrom src, i => .clone src i
  | .cloneSelf, i => .clone i i
  | .stateRead, i => .stateRead i
  | .stateWrite, i => .stateWrite i
  | .query, i => .query i

/-- One act of a sequence (R184): a command applied to the instance, or the host's write of an operand register before
the next command (R31, R91). -/
inductive SequenceAct where
  | operand (k : BitVec 10) (v : Word)
  | command (c : EngineCommand)
deriving DecidableEq, Repr

/-- A sequence of commands on one instance, with the host's operand writes between them: the state it ends in and the RES
value and ERR code after each command; `none` if one of the commands does not complete. -/
def runOn (i : BitVec 4) : List SequenceAct → State → Option (State × List (Word × BitVec 4))
  | [], s => some (s, [])
  | .operand k v :: acts, s => runOn i acts (s.writeOpnd k.toNat v)
  | .command c :: acts, s =>
    match exec (c.on i) s with
    | .next t => (runOn i acts t).map fun r => (r.1, (t.res, t.err) :: r.2)
    | .fault _ => none
    | .refused _ => none

/-! ### What the statements speak of -/

/-- The state after a command that put engine `e` into instance `i` and completed (R39, R35, R38). -/
def State.stepped (s : State) (i : BitVec 4) (e : Engine) : State :=
  { s with insts := s.insts.set i.toNat { valid := true, engine := e }, err := 0, running := none }

/-- The state after a command that put engine `e` into instance `i`, answered `r` in RES, and completed (R33). -/
def State.answered (s : State) (i : BitVec 4) (e : Engine) (r : Word) : State :=
  { s with insts := s.insts.set i.toNat { valid := true, engine := e }, res := r, err := 0, running := none }

/-- The state after a command that was refused with error code `code` (R484). -/
def State.refusedAs (s : State) (code : BitVec 4) : State :=
  { s with err := code, sticky := true, running := none }

/-- Instance `i` exists, is seeded and holds engine `e` (R39, R40). -/
abbrev State.holds (s : State) (i : BitVec 4) (e : Engine) : Prop :=
  i.toNat < s.ninst ∧ s.inst i = { valid := true, engine := e }

/-- The next step executes the command word `w`: it has been accepted, and no event lands before it completes. -/
abbrev State.due (s : State) (w : Word) : Prop :=
  s.running = some w ∧ ∀ e rest, s.inbox = e :: rest → landsWhileBusy s e = false

/-- The operands OPND[0], OPND[1], ... hold the words `us` (R135). -/
abbrev State.operands (s : State) (us : List Word) : Prop := ∀ k, k < us.length → us[k]? = some (s.opnd k)

/-- One row of spec/opcode_table.json, with the bits of the fields the row uses (R123). -/
structure OpcodeRow where
  op : BitVec 6
  bits : Word
  mask : Word
  used : Word
deriving DecidableEq, Repr

/-- The bits of VAR, ZOK, LOK, CNT, INST and DST (R120). -/
def varBits : Word := 0x0000000000000FC0
def zokBits : Word := 0x0000000000001000
def lokBits : Word := 0x0000000000002000
def cntBits : Word := 0x0000000000FFC000
def instBits : Word := 0x000000000F000000
def dstBits : Word := 0x00000000F0000000

/-- The rows of spec/opcode_table.json, its match and mask letter for letter, and the fields of the table of R123. -/
def opcodeRows : List OpcodeRow :=
  [⟨0x00, 0x0000000000000000, 0xFFFFFFFFFFFFFFFF, 0⟩,
   ⟨0x01, 0x0000000000000001, 0xFFFFFFFFF000003F, varBits ||| zokBits ||| lokBits ||| cntBits ||| instBits⟩,
   ⟨0x02, 0x0000000000000002, 0xFFFFFFFFF000003F, varBits ||| zokBits ||| lokBits ||| cntBits ||| instBits⟩,
   ⟨0x03, 0x0000000000000003, 0xFFFFFFFFF000203F, varBits ||| zokBits ||| cntBits ||| instBits⟩,
   ⟨0x04, 0x0000000000000004, 0xFFFFFFFFF0FFF03F, varBits ||| instBits⟩,
   ⟨0x08, 0x0000000000000008, 0xFFFFFFFFF0FFFFFF, instBits⟩,
   ⟨0x09, 0x0000000000000009, 0xFFFFFFFFF0FFFFFF, instBits⟩] ++
  [⟨0x10, 0x0000000000000010, 0xFFFFFFFFF0FFFFFF, instBits⟩,
   ⟨0x11, 0x0000000000000011, 0xFFFFFFFFF0FFFFFF, instBits⟩,
   ⟨0x12, 0x0000000000000012, 0xFFFFFFFFF0FFFFFF, instBits⟩,
   ⟨0x18, 0x0000000000000018, 0xFFFFFFFF00FFFFFF, instBits ||| dstBits⟩,
   ⟨0x1C, 0x000000000000001C, 0xFFFFFFFFF0FFFFFF, instBits⟩,
   ⟨0x1D, 0x000000000000001D, 0xFFFFFFFFF0FFFFFF, instBits⟩,
   ⟨0x1E, 0x000000000000001E, 0xFFFFFFFFF0FFFFFF, instBits⟩]

/-- The assigned variant codes (R131). -/
def assignedCodes : List (BitVec 6) :=
  [0x01, 0x02, 0x03, 0x04, 0x05, 0x06, 0x07, 0x08, 0x09, 0x0A, 0x0B, 0x0C, 0x0D, 0x10, 0x11, 0x18, 0x19, 0x20, 0x21,
   0x28, 0x29, 0x2A, 0x2B]

/-- The five cases of R486, on the bits of the word: bits [63:32] not 0; OP not assigned; an unused field not 0; INST, or
CLONE's DST, not below NINST (NOP uses neither, R124); a seeding command with a VAR that is not assigned. -/
abbrev IllegalWord (ninst : Nat) (w : Word) : Prop :=
  w.extractLsb' 32 32 ≠ 0 ∨
  (∀ row ∈ opcodeRows, row.op ≠ w.extractLsb' 0 6) ∨
  (∃ row ∈ opcodeRows, row.op = w.extractLsb' 0 6 ∧ w &&& row.mask ≠ row.bits) ∨
  (w.extractLsb' 0 6 ≠ (0 : BitVec 6) ∧ ninst ≤ (w.extractLsb' 24 4).toNat) ∨
  (w.extractLsb' 0 6 = (0x18 : BitVec 6) ∧ ninst ≤ (w.extractLsb' 28 4).toNat) ∨
  (w.extractLsb' 0 6 ∈ ([1, 2, 3, 4] : List (BitVec 6)) ∧ w.extractLsb' 6 6 ∉ assignedCodes)

/-- The values that may be written to SV[j] of a variant, j < NSV (the table of R65). -/
def legalValue (v : Variant) (j : Nat) (val : Word) : Bool :=
  match v with
  | .xoroshiro1024s | .xoroshiro1024pp | .xoroshiro1024ss => decide (j = 16 → val.toNat ≤ 15)
  | .mt19937 => if j < 624 then decide (val.toNat < 2 ^ 32) else decide (val.toNat ≤ 624)
  | .mt19937w64 => decide (j = 312 → val.toNat ≤ 312)
  | _ => true

/-- The n-th seed byte of the operand registers (R97). -/
def operandByte (s : State) (n : Nat) : Byte := (s.opnd (n / 8)).extractLsb' (8 * (n % 8)) 8

/-- The k-th seed element of the operand registers, truncated to the variant's element width (R162). -/
def operandElement (s : State) (v : Variant) (k : Nat) : Nat := (s.opnd k).toNat % 2 ^ elementWidth v

/-- How many of `n` supplied elements the zero rule checks (R164). -/
def checkedCount (v : Variant) (n : Nat) : Nat := if isMt v then n else min n (seedCount v)

/-- The cases of R482, for a command whose VAR names variant `v`. -/
def InvalidSeedCase (s : State) (v : Variant) : Instr → Prop
  | .seed _ zok lok cnt _ =>
    (cnt.toNat ≠ seedCount v ∧ lok = false) ∨
      ((∀ k, k < checkedCount v cnt.toNat → operandElement s v k = 0) ∧ zok = false)
  | .seedBytes _ zok lok cnt _ =>
    let b := elementWidth v / 8
    let n := (cnt.toNat + (b - 1)) / b
    (cnt.toNat % b ≠ 0 ∧ lok = false) ∨ (n ≠ seedCount v ∧ lok = false) ∨
      ((∀ m, m < cnt.toNat → m < checkedCount v n * b → operandByte s m = 0) ∧ zok = false)
  | .seedKey _ zok cnt _ =>
    isMt v = true ∧ (cnt.toNat = 0 ∨ ((∀ k, k < cnt.toNat → operandElement s v k = 0) ∧ zok = false))
  | .seedEntropy _ _ =>
    ∀ j, j < seedCount v → (Config.entropy (s.draws + j)).toNat % 2 ^ elementWidth v = 0
  | _ => False

/-- The cases of R483: the command, on the variant it meets, is an operation the variant does not define. -/
def UnsupportedCase (s : State) : Instr → Prop
  | .seedKey var _ _ _ => ∃ v, variantOfCode? var = some v ∧ v ∉ [Variant.mt19937, .mt19937w64]
  | .next32 i => engineVariant (s.inst i).engine ∉ [Variant.pcg32, .mt19937]
  | .jump i => engineVariant (s.inst i).engine ∈ [Variant.splitmix64, .mt19937, .mt19937w64, .sfc64, .jsf64]
  | .longJump i =>
    engineVariant (s.inst i).engine ∈ [Variant.splitmix64, .mt19937, .mt19937w64, .sfc64, .jsf64, .gmwc128]
  | .advance i => engineVariant (s.inst i).engine ∉ [Variant.pcg32, .pcg64]
  | _ => False

/-- The VAR field of a seeding command. -/
def seedVar : Instr → Option (BitVec 6)
  | .seed var .. => some var
  | .seedBytes var .. => some var
  | .seedKey var .. => some var
  | .seedEntropy var _ => some var
  | .nop => none
  | .next _ => none
  | .next32 _ => none
  | .jump _ => none
  | .longJump _ => none
  | .advance _ => none
  | .clone .. => none
  | .stateRead _ => none
  | .stateWrite _ => none
  | .query _ => none

/-- How many operands a command reads, OPND[0] first (the table of R135). -/
def operandsRead (s : State) : Instr → Nat
  | .seed _ _ _ cnt _ => cnt.toNat
  | .seedBytes _ _ _ cnt _ => (cnt.toNat + 7) / 8
  | .seedKey _ _ cnt _ => cnt.toNat
  | .advance i =>
    if engineVariant (s.inst i).engine = .pcg32 then 1 else if engineVariant (s.inst i).engine = .pcg64 then 2 else 0
  | .stateRead _ => 1
  | .stateWrite _ => 2
  | .nop => 0
  | .seedEntropy _ _ => 0
  | .next _ => 0
  | .next32 _ => 0
  | .jump _ => 0
  | .longJump _ => 0
  | .clone _ _ => 0
  | .query _ => 0

/-- The command reads an operand that the host has not written since reset. R31, R488 and U1 make that read a fault of the
model, outside what a host program may rely on; here the command runs on the free value the register holds (log entry 3).
A claim about a host program that follows R31 takes `readsUnwritten = false` as its premise. -/
def State.readsUnwritten (s : State) (i : Instr) : Bool :=
  (List.range (operandsRead s i)).any fun k => !s.opndWritten k

/-- The error codes a command may report (the column "raised by" of R481); 0 is success. -/
def reportedCodes : Instr → List (BitVec 4)
  | .nop => [0]
  | .seed .. => [0, 1, 5]
  | .seedBytes .. => [0, 1, 5]
  | .seedKey .. => [0, 1, 2, 5]
  | .seedEntropy .. => [0, 1, 5]
  | .next _ => [0, 4, 5]
  | .next32 _ => [0, 2, 4, 5]
  | .jump _ => [0, 2, 4, 5]
  | .longJump _ => [0, 2, 4, 5]
  | .advance _ => [0, 2, 4, 5]
  | .clone .. => [0, 4, 5]
  | .stateRead _ => [0, 4, 5, 6]
  | .stateWrite _ => [0, 4, 5, 6]
  | .query _ => [0, 4, 5]

/-- The instance a command needs to be seeded (R485): every command's but NOP's and the seeding commands'. -/
def neededInst : Instr → Option (BitVec 4)
  | .nop => none
  | .seed .. => none
  | .seedBytes .. => none
  | .seedKey .. => none
  | .seedEntropy .. => none
  | .next i => some i
  | .next32 i => some i
  | .jump i => some i
  | .longJump i => some i
  | .advance i => some i
  | .clone i _ => some i
  | .stateRead i => some i
  | .stateWrite i => some i
  | .query i => some i

/-- Every instance the command needs is seeded (check 7a of R490). -/
abbrev State.seededFor (s : State) (i : Instr) : Prop := ∀ k, neededInst i = some k → (s.inst k).valid = true

/-- An MWC state whose packed value is below the modulus: the states on which the jump equals stepping (R456). -/
abbrev mwcCanonical {r : Nat} (mult : Word) (s : Mwc r) : Prop := mwcPack s < mwcModulus r mult

/-- One turn of the first loop of `mt_by_array` on the array, i and j: the line that rewrites `mt[i]`, the two increments,
and the two wraps (R342, R352). `shift` and `mult` are the numbers of that line. -/
def keyTurnFirst {w n : Nat} (shift : Nat) (mult : BitVec w) (key : List (BitVec w))
    (a : Vector (BitVec w) n × Nat × Nat) : Vector (BitVec w) n × Nat × Nat :=
  let (mt, i, j) := a
  let prev := mt.getD (i - 1) 0
  let mt := mt.setIfInBounds i ((mt.getD i 0 ^^^ ((prev ^^^ (prev >>> shift)) * mult)) + key.getD j 0 + BitVec.ofNat w j)
  let j := if j + 1 ≥ key.length then 0 else j + 1
  if i + 1 ≥ n then (mt.setIfInBounds 0 (mt.getD (n - 1) 0), 1, j) else (mt, i + 1, j)

/-- One turn of the second loop of `mt_by_array` on the array and i (R342, R352). -/
def keyTurnSecond {w n : Nat} (shift : Nat) (mult : BitVec w) (a : Vector (BitVec w) n × Nat) :
    Vector (BitVec w) n × Nat :=
  let (mt, i) := a
  let prev := mt.getD (i - 1) 0
  let mt := mt.setIfInBounds i ((mt.getD i 0 ^^^ ((prev ^^^ (prev >>> shift)) * mult)) - BitVec.ofNat w i)
  if i + 1 ≥ n then (mt.setIfInBounds 0 (mt.getD (n - 1) 0), 1) else (mt, i + 1)

end Sys2Proof.Machine
end

