-- ==== Sys2Proof/Certificates/Slice0/Obligations.lean ====
section
/-!
DEFINITION. The statements for the provers. Each docstring names the rule of spec/ it formalises. The statements about
a command's result conclude that `exec` answers exactly the next state given: they are frames and completions as well.
-/

open Sys2Proof Sys2Proof.Machine

/-! ### Encoding (30_encoding.md) -/

/-- The worked encodings of R140, both ways. -/
def Obligations.WorkedEncodings : Prop :=
  ∀ p ∈ ([(0x000101C1, .seed 0x07 false false 4 0),
      (0x00004A01, .seed 0x28 false false 1 0),
      (0x01004AC1, .seed 0x2B false false 1 1),
      (0x02008401, .seed 0x10 false false 2 2),
      (0x03004601, .seed 0x18 false false 1 3),
      (0x03010603, .seedKey 0x18 false 4 3),
      (0x03010602, .seedBytes 0x18 false false 4 3),
      (0x00004041, .seed 0x01 false false 1 0),
      (0x00005041, .seed 0x01 true false 1 0),
      (0x0100A181, .seed 0x06 false true 2 1),
      (0x00000008, .next 0),
      (0x02000009, .next32 2),
      (0x00000010, .jump 0),
      (0x01000011, .longJump 1),
      (0x02000012, .advance 2),
      (0x10000018, .clone 0 1),
      (0x0100001C, .stateRead 1),
      (0x0000001D, .stateWrite 0),
      (0x0200001E, .query 2)] : List (Word × Instr)),
    decode p.1 = .ok p.2 ∧ encode p.2 = p.1

/-- Decode and encode agree: every command, with every operand at every value of its field, decodes from its encoding
(R120 to R123), and the encoding is the only one: "each opcode has exactly one legal encoding for each assignment of
values to its used fields" (R123). -/
def Obligations.DecodeEncode : Prop :=
  (∀ i : Instr, decode (encode i) = .ok i) ∧ ∀ (w : Word) (i : Instr), decode w = .ok i → encode i = w

/-- R136: match is OP with every other bit 0; mask is every bit but those of the used fields; a word encodes a command
exactly when `w & mask = match`; the range checks of R124 and R133 then apply; the worked example. -/
def Obligations.OpcodeTable : Prop :=
  (∀ row ∈ opcodeRows, row.bits = row.op.setWidth 64 ∧ row.mask = ~~~ row.used ∧
    ∀ w : Word, (∃ i, decode w = .ok i ∧ opcodeOf i = row.op) ↔ w &&& row.mask = row.bits) ∧
  (∀ (s : State) (w : Word) (i : Instr), decode w = .ok i → i.wellFormed s.ninst = false →
    runCommand s w = .next (s.refusedAs 5)) ∧
  decode 0x0000000002000008 = .ok (.next 2) ∧
  (0x0000000002000008 &&& 0xFFFFFFFFF0FFFFFF : Word) = 0x08

/-- R486: IllegalCommand is raised exactly by the words of the five cases, whatever the engines' state; such a word
changes nothing but STATUS. -/
def Obligations.IllegalCommandExactly : Prop :=
  ∀ (s : State) (w : Word),
    (IllegalWord s.ninst w → runCommand s w = .next (s.refusedAs 5)) ∧
      ∀ t, runCommand s w = .next t → t.err = 5 → IllegalWord s.ninst w

/-! ### The step and the register window (20_memory.md, 70_reset_and_hazards.md) -/

/-- A step runs the decoded command: when the accepted command word is due and decodes to `i`, the step is `exec i`; a
word that decodes to no command is refused with IllegalCommand. Nothing is added around `exec`. -/
def Obligations.StepRunsDecodedCommand : Prop :=
  ∀ (s : State) (w : Word), s.due w →
    (∀ i, decode w = .ok i → step s = exec i s) ∧ (∀ e, decode w = .error e → step s = .next (s.refusedAs 5))

/-- R102: while BUSY = 1 a STATUS read that arrives is answered at once, with BUSY = 1 and ERR, STICKY and VALID as they
are, and any other access is held: the step is the command's, the access stays first in line, and it is served in a
step after the command has completed. "Any other access" takes in accesses of which the spec says less, and holding those
is the model's reading: one of a wrong width or alignment (log entry 14, DEDUCED) and one outside the window (log entry
12, DESIGN CHOICE). When an event arrives is the inbox's (log entry 1). -/
def Obligations.BusyProtocol : Prop :=
  (∀ (s : State) (w : Word) (rest : List HostEvent), s.running = some w →
    s.inbox = ⟨true, .read (s.params.blockBase + 8) 8⟩ :: rest →
    step s = .next { s with inbox := rest, replies := s.replies ++ [statusWord s] } ∧
      (statusWord s).getLsbD 4 = true ∧
      ∀ v : Option Word, (statusWord { s with running := v }) ||| 0x10 = statusWord s) ∧
  (∀ (s : State) (w : Word) (e : HostEvent) (rest : List HostEvent), s.running = some w → s.inbox = e :: rest →
    e.act ≠ .read (s.params.blockBase + 8) 8 → e.act ≠ .reset →
    step s = runCommand s w ∧ ∀ t, step s = .next t → t.inbox = e :: rest ∧ t.busy = false) ∧
  (∀ (s : State) (e : HostEvent) (rest : List HostEvent), s.running = none → s.inbox = e :: rest →
    step s = serve { s with inbox := rest } e.act)

/-- R91, R93, R94: what a read of each offset returns and what a write to it does, with BUSY = 0. R91 has a model fault on a
read of an operand not written since reset; here it answers the free value the register holds (log entry 3). -/
def Obligations.RegisterMap : Prop :=
  ∀ (s : State) (off : Nat) (early : Bool) (v : Word) (rest : List HostEvent),
    s.running = none → off % 8 = 0 → off < 0x4000 →
    (s.inbox = ⟨early, .read (s.params.blockBase + off) 8⟩ :: rest →
      step s =
        if 0x1000 ≤ off ∧ off < 0x3000 then
          .next { s with inbox := rest, replies := s.replies ++ [s.opnd ((off - 0x1000) / 8)] }
        else
          .next { s with
            inbox := rest
            replies := s.replies ++ [if off = 0x8 then statusWord s else if off = 0x10 then s.res else 0] }) ∧
    (s.inbox = ⟨early, .write (s.params.blockBase + off) 8 v⟩ :: rest →
      if off = 0 then step s = .next { s with inbox := rest, running := some v }
      else if 0x1000 ≤ off ∧ off < 0x3000 then
        ∃ m, step s = .next { s with inbox := rest, mem := m } ∧
          State.opnd { s with mem := m } ((off - 0x1000) / 8) = v ∧
          State.opndWritten { s with mem := m } ((off - 0x1000) / 8) = true ∧
          ∀ a, ¬ (off ≤ a ∧ a < off + 8) → Memory.readByte m a = Memory.readByte s.mem a
      else step s = .next { s with inbox := rest })

/-- R96: byte j of an operand register is its bits [8j+7 : 8j], as a host's write stores it and as a read finds it. A byte
not written since reset is a free value (log entry 3). -/
def Obligations.LittleEndian : Prop :=
  ∀ (s : State) (k : Nat) (v : Word),
    (s.opnd k = v ↔ ∀ j, j < 8 → s.byteAt (0x1000 + 8 * k + j) = v.extractLsb' (8 * j) 8) ∧
    ∀ (early : Bool) (rest : List HostEvent), s.running = none → k < 1024 →
      s.inbox = ⟨early, .write (s.params.blockBase + 0x1000 + 8 * k) 8 v⟩ :: rest →
      ∃ t, step s = .next t ∧
        ∀ j, j < 8 → Memory.readByte t.mem (0x1000 + 8 * k + j) = some (v.extractLsb' (8 * j) 8)

/-- R92: an access in the window that is not 8 bytes wide, or not at a multiple of 8, is the host step's fault: there is
no next state, so it changes no state and starts no command. -/
def Obligations.BusError : Prop :=
  ∀ (s : State) (off width : Nat) (early : Bool) (v : Word) (rest : List HostEvent),
    s.running = none → off < 0x4000 → ¬ (width = 8 ∧ off % 8 = 0) →
    (s.inbox = ⟨early, .read (s.params.blockBase + off) width⟩ :: rest ∨
      s.inbox = ⟨early, .write (s.params.blockBase + off) width v⟩ :: rest) →
    step s = .fault (.busError off width)

/-- R520: reset, in one step, gives every piece of state its value of R80, and a command that was executing is
abandoned. The wired parameters and NINST stay. OPND is unspecified: no register counts as written, and the free values
are those of the next reset (log entry 3). -/
def Obligations.ResetInput : Prop :=
  ∀ (s : State) (early : Bool) (rest : List HostEvent), s.inbox = ⟨early, .reset⟩ :: rest →
    s.running = none ∨ early = true →
    ∃ t, step s = .next t ∧ t.res = 0 ∧ t.err = 0 ∧ t.busy = false ∧ t.sticky = false ∧
      (∀ i, (t.inst i).valid = false) ∧ (∀ a, Memory.readByte t.mem a = none) ∧
      (∀ k, t.opndWritten k = false) ∧ t.resets = s.resets + 1 ∧ t.ninst = s.ninst ∧ t.params = s.params ∧
      t.inbox = rest

/-- R80: the state after reset, for every NINST up to 16 and every value of the wired parameters; VARIANT and S cannot be
observed, since every command that would read them fails with Unseeded. OPND is unspecified: no register counts as
written, and what it holds is a free value, of which nothing is said (log entry 3: R80 has a model fault on its read). -/
def Obligations.ResetValues : Prop :=
  ∀ (p : Params) (n : Nat), n ≤ 16 →
    let s := State.resetWith p n
    (∀ a, Memory.readByte s.mem a = none) ∧ (∀ k, s.opndWritten k = false) ∧ s.res = 0 ∧ s.err = 0 ∧ s.busy = false ∧
      s.sticky = false ∧ s.ninst = n ∧ statusWord s = BitVec.ofNat 64 (256 * n) ∧ (∀ i, (s.inst i).valid = false) ∧
      regValue s .cmd = 0 ∧
      (∀ (c : Instr) (k : BitVec 4), neededInst c = some k → c.wellFormed n = true →
        exec c s = .next (s.refusedAs 4)) ∧
      core.reset = State.reset

/-- R34: the fields of STATUS, its reset value, the codes it never shows, and the worked example. -/
def Obligations.StatusLayout : Prop :=
  (∀ s : State, s.ninst ≤ 16 →
    (statusWord s).extractLsb' 0 4 = s.err ∧ (statusWord s).getLsbD 4 = s.busy ∧
      (statusWord s).getLsbD 5 = s.sticky ∧ (statusWord s).extractLsb' 6 2 = 0 ∧
      ((statusWord s).extractLsb' 8 5).toNat = s.ninst ∧ (statusWord s).extractLsb' 13 3 = 0 ∧
      (∀ i, i < 16 → (statusWord s).getLsbD (16 + i) = ((s.insts[i]?).map Inst.valid).getD false) ∧
      (statusWord s).extractLsb' 32 32 = 0) ∧
  (∀ (p : Params) (n : Nat), n ≤ 16 → statusWord (State.resetWith p n) = BitVec.ofNat 64 n <<< 8) ∧
  (∀ s t : State, step s = .next t → s.err.toNat < 7 → t.err.toNat < 7) ∧
  (∀ s : State, s.insts.map Inst.valid = [true, true, false, false] → s.err = 2 → s.sticky = true → s.busy = false →
    statusWord s = 0x0000000000030422)

/-! ### Errors (60_exceptions.md) and frames -/

/-- R484: a command that is refused changes only ERR, its code, and STICKY, set to 1 (and BUSY, which returns to 0). The
count of words the entropy port has given is the model's own field. -/
def Obligations.Rollback : Prop :=
  (∀ (i : Instr) (s t : State), exec i s = .next t → t.err ≠ 0 → t = { s.refusedAs t.err with draws := t.draws }) ∧
  (∀ (w : Word) (s t : State), runCommand s w = .next t → t.err ≠ 0 →
    t = { s.refusedAs t.err with draws := t.draws })

/-- R481: which codes each command reports; 3 and 7 to 15 are never written; a word that is no command reports 5; no
error leaves another record than ERR and STICKY. -/
def Obligations.ErrorCodes : Prop :=
  (∀ (i : Instr) (s t : State), exec i s = .next t →
    t.err ∈ reportedCodes i ∧ (t.err ≠ 0 → t = { s.refusedAs t.err with draws := t.draws })) ∧
  (∀ (w : Word) (e : DecodeError) (s : State), decode w = .error e → runCommand s w = .next (s.refusedAs 5))

/-- R37: every command that ends in an error sets STICKY, no command clears it, and only reset does. -/
def Obligations.Sticky : Prop :=
  (∀ (w : Word) (s t : State), runCommand s w = .next t → t.sticky = (s.sticky || decide (t.err ≠ 0))) ∧
  (∀ s t : State, step s = .next t → s.sticky = true → t.sticky = false →
    ∃ e rest, s.inbox = e :: rest ∧ e.act = .reset)

/-- R33: only NEXT, NEXT32, STATE_READ and QUERY write RES, and only when they complete without error; RES is 0 after
reset. -/
def Obligations.ResultWriters : Prop :=
  (∀ (i : Instr) (s t : State), exec i s = .next t →
    (t.err ≠ 0 ∨ ∀ k, i ≠ .next k ∧ i ≠ .next32 k ∧ i ≠ .stateRead k ∧ i ≠ .query k) → t.res = s.res) ∧
  (∀ (w : Word) (e : DecodeError) (s t : State), decode w = .error e → runCommand s w = .next t → t.res = s.res) ∧
  (∀ (p : Params) (n : Nat), (State.resetWith p n).res = 0)

/-- R41: a command reads and writes only the instance it names; CLONE reads INST and writes DST. Two states that agree
on the instance the command reads, whatever the others hold, end alike, and every instance not written stays. -/
def Obligations.InstancesIsolated : Prop :=
  ∀ (i : Instr) (s : State) (others : List Inst), others.length = s.ninst →
    (∀ k, neededInst i = some k → State.inst { s with insts := others } k = s.inst k) →
    (∀ t, exec i s = .next t → ∃ t', exec i { s with insts := others } = .next t' ∧
      t' = { t with insts := t'.insts } ∧
      (∀ k, targetOf i = some k → t.err = 0 → t'.inst k = t.inst k) ∧
      (∀ k, targetOf i ≠ some k ∨ t.err ≠ 0 → t.inst k = s.inst k ∧
        t'.inst k = State.inst { s with insts := others } k))

/-- The frame of every command: no byte of memory changes, nor the parameters, the host's events and replies, or NINST;
the entropy count moves only for SEED_ENTROPY; every instance but the one written stays (R31, R41, R484). -/
def Obligations.CommandFrame : Prop :=
  ∀ (i : Instr) (s t : State), exec i s = .next t →
    (∀ a, Memory.readByte t.mem a = Memory.readByte s.mem a) ∧ t.mem = s.mem ∧ t.params = s.params ∧
      t.inbox = s.inbox ∧ t.replies = s.replies ∧ t.resets = s.resets ∧ t.ninst = s.ninst ∧ t.busy = false ∧
      ((∀ var k, i ≠ .seedEntropy var k) → t.draws = s.draws) ∧
      (∀ k, targetOf i ≠ some k → t.inst k = s.inst k) ∧
      ((∀ k, i ≠ .next k ∧ i ≠ .next32 k ∧ i ≠ .stateRead k ∧ i ≠ .query k) → t.res = s.res)

/-- R485: Unseeded is reported exactly when the command needs a seeded instance and it is not; for CLONE that is the
source. -/
def Obligations.UnseededExactly : Prop :=
  ∀ (i : Instr) (s : State),
    (∀ k, i.wellFormed s.ninst = true → neededInst i = some k → (s.inst k).valid = false →
      exec i s = .next (s.refusedAs 4)) ∧
    (∀ t, exec i s = .next t → t.err = 4 → ∃ k, neededInst i = some k ∧ (s.inst k).valid = false)

/-- R483: UnsupportedOperation is reported exactly in the listed cases, once the checks before it have passed. -/
def Obligations.UnsupportedExactly : Prop :=
  ∀ (i : Instr) (s : State),
    (i.wellFormed s.ninst = true → s.seededFor i → UnsupportedCase s i → exec i s = .next (s.refusedAs 2)) ∧
    (∀ t, exec i s = .next t → t.err = 2 → UnsupportedCase s i)

/-- R482: InvalidSeed is reported exactly in the listed cases. -/
def Obligations.InvalidSeedExactly : Prop :=
  ∀ (i : Instr) (s t : State), exec i s = .next t →
    (t.err = 1 ↔ i.wellFormed s.ninst = true ∧
      ∃ c v, seedVar i = some c ∧ variantOfCode? c = some v ∧ InvalidSeedCase s v i)

/-- R487, R65: InvalidStateAccess is reported exactly for an index outside the state vector, or a value the field cannot
hold. -/
def Obligations.StateAccessExactly : Prop :=
  (∀ (s : State) (i : BitVec 4) (e : Engine), s.holds i e → stateWords (engineVariant e) ≤ (s.opnd 0).toNat →
    exec (.stateRead i) s = .next (s.refusedAs 6)) ∧
  (∀ (s : State) (i : BitVec 4) (e : Engine), s.holds i e →
    stateWords (engineVariant e) ≤ (s.opnd 0).toNat ∨
      legalValue (engineVariant e) (s.opnd 0).toNat (s.opnd 1) = false →
    exec (.stateWrite i) s = .next (s.refusedAs 6)) ∧
  (∀ (c : Instr) (s t : State), exec c s = .next t → t.err = 6 → ∃ (i : BitVec 4) (e : Engine), s.holds i e ∧
    ((c = .stateRead i ∧ stateWords (engineVariant e) ≤ (s.opnd 0).toNat) ∨
      (c = .stateWrite i ∧ (stateWords (engineVariant e) ≤ (s.opnd 0).toNat ∨
        legalValue (engineVariant e) (s.opnd 0).toNat (s.opnd 1) = false))))

/-- Every command, and every command word, completes in every state: BUSY returns to 0 (R160, R532). A command that reads
an operand not written since reset completes too, on the free value the register holds (log entry 3). -/
def Obligations.CommandsComplete : Prop :=
  (∀ (i : Instr) (s : State), ∃ t, exec i s = .next t ∧ t.busy = false) ∧
  ∀ (w : Word) (s : State), ∃ t, runCommand s w = .next t ∧ t.busy = false

/-- R135 and R490: a command reads the listed operands and no other: its outcome is the same whatever else memory holds
and whatever the free values are. A command that one of its earlier checks stops reads none. So a command whose operands
the host has written rests on no free value: where R31 and R488 have a model fault, and only there, this model runs on a
free value (log entry 3, DESIGN CHOICE). -/
def Obligations.OperandsRead : Prop :=
  ∀ (i : Instr) (s : State),
    let same := fun (m : Memory) (n : Nat) =>
      exec i { s with mem := m, resets := n } =
        match exec i s with
        | .next t => .next { t with mem := m, resets := n }
        | .fault f => .fault f
        | .refused r => .refused r
    (∀ (m : Memory) (n : Nat),
      (∀ k, k < operandsRead s i → State.opnd { s with mem := m, resets := n } k = s.opnd k) → same m n) ∧
    (i.wellFormed s.ninst = false ∨ ¬ s.seededFor i ∨ UnsupportedCase s i → ∀ (m : Memory) (n : Nat), same m n) ∧
    (s.readsUnwritten i = false → ∀ n : Nat, same s.mem n)

/-! ### Seeding (40_commands.md R161 to R170) -/

/-- R181: NOP clears ERR and does nothing else; it checks no instance; any other word with OP = 0 is IllegalCommand. -/
def Obligations.NopCompletes : Prop :=
  (∀ s : State, exec .nop s = .next { s with err := 0, running := none }) ∧
  ∀ (s : State) (w : Word), w.extractLsb' 0 6 = (0 : BitVec 6) →
    runCommand s w = .next (if w = 0 then { s with err := 0, running := none } else s.refusedAs 5)

/-- SEED on every variant but the MT ones (R161, R163 to R166, R170): a seed that passes the length rule and the zero
rule replaces the whole instance. A longer seed is cut; a shorter one is filled from a splitmix64 stream that starts at
its last word, or at 0. -/
def Obligations.SeedCompletes : Prop :=
  ∀ (s : State) (var : BitVec 6) (zok lok : Bool) (cnt : BitVec 10) (i : BitVec 4) (v : Variant) (us : List Word),
    i.toNat < s.ninst → variantOfCode? var = some v → v ∉ [Variant.mt19937, .mt19937w64] →
    us.length = cnt.toNat → s.operands us →
    (cnt.toNat = seedCount v ∨ lok = true) → ((∃ x ∈ us.take (seedCount v), x ≠ 0) ∨ zok = true) →
    let last := us.getLast?.getD 0
    let fill := (List.range (seedCount v - us.length)).map fun j =>
      splitMixOut (last + 0x9E3779B97F4A7C15 * BitVec.ofNat 64 (j + 1))
    exec (.seed var zok lok cnt i) s = .next (s.stepped i (initEngine v (us.take (seedCount v) ++ fill)))

/-- SEED on the MT variants (R162, R163, R164, R166): one element selects `mt_genrand`, none `mt_genrand(0)`, two or more
`mt_by_array`; for MT19937 an element is the low 32 bits of its operand, and the zero rule looks at those alone. -/
def Obligations.SeedMersenneCompletes : Prop :=
  (∀ (s : State) (zok lok : Bool) (cnt : BitVec 10) (i : BitVec 4) (us : List Word),
    i.toNat < s.ninst → us.length = cnt.toNat → s.operands us →
    (cnt.toNat = 1 ∨ lok = true) → ((∃ x ∈ us, x.setWidth 32 ≠ (0 : Word32)) ∨ zok = true) →
    exec (.seed 0x18 zok lok cnt i) s =
      .next (s.stepped i (.mt19937 (match us with
        | [] => mtGenrand mt32Params 624 0
        | [x] => mtGenrand mt32Params 624 (x.setWidth 32)
        | _ => mtByArray mt32Params 624 (us.map fun x => x.setWidth 32))))) ∧
  (∀ (s : State) (zok lok : Bool) (cnt : BitVec 10) (i : BitVec 4) (us : List Word),
    i.toNat < s.ninst → us.length = cnt.toNat → s.operands us →
    (cnt.toNat = 1 ∨ lok = true) → ((∃ x ∈ us, x ≠ 0) ∨ zok = true) →
    exec (.seed 0x19 zok lok cnt i) s =
      .next (s.stepped i (.mt19937w64 (match us with
        | [] => mtGenrand mt64Params 312 0
        | [x] => mtGenrand mt64Params 312 x
        | _ => mtByArray mt64Params 312 us))))

/-- SEED_BYTES (R97, R167): the bytes of the operands, little-endian, are assembled into elements of 4 bytes (MT19937) or
8, the last one completed with zero bytes, and the elements seed the instance by the common path. -/
def Obligations.SeedBytesCompletes : Prop :=
  ∀ (s : State) (var : BitVec 6) (zok lok : Bool) (cnt : BitVec 10) (i : BitVec 4) (v : Variant),
    i.toNat < s.ninst → variantOfCode? var = some v →
    let b := if v = .mt19937 then 4 else 8
    let n := (cnt.toNat + (b - 1)) / b
    let byte := fun m => if m < cnt.toNat then (operandByte s m).toNat else 0
    let elements := (List.range n).map fun j =>
      BitVec.ofNat 64 ((List.range b).map fun x => byte (j * b + x) * 2 ^ (8 * x)).sum
    ((cnt.toNat % b = 0 ∧ n = seedCount v) ∨ lok = true) →
    ((∃ m, m < cnt.toNat ∧ m < checkedCount v n * b ∧ operandByte s m ≠ 0) ∨ zok = true) →
    exec (.seedBytes var zok lok cnt i) s = .next (s.stepped i (seededFrom v elements))

/-- SEED_KEY (R168): on an MT variant, a key of at least one element that is not all zero (or ZOK) seeds the instance by
`mt_by_array`, one element included. `mt_by_array` is the two loops of R342 and R352, turn by turn, over the array of
`mt_genrand(19650218)`: max(N, n) turns of the first from i = 1 and j = 0, N - 1 turns of the second from the i the first
leaves; the first word is then the most significant bit alone and mti is N. -/
def Obligations.SeedKeyCompletes : Prop :=
  (∀ (s : State) (zok : Bool) (cnt : BitVec 10) (i : BitVec 4) (us : List Word),
    i.toNat < s.ninst → us.length = cnt.toNat → cnt ≠ 0 → s.operands us →
    ((∃ x ∈ us, x.setWidth 32 ≠ (0 : Word32)) ∨ zok = true) →
    exec (.seedKey 0x18 zok cnt i) s =
      .next (s.stepped i (.mt19937 (mtByArray mt32Params 624 (us.map fun x => x.setWidth 32))))) ∧
  (∀ (s : State) (zok : Bool) (cnt : BitVec 10) (i : BitVec 4) (us : List Word),
    i.toNat < s.ninst → us.length = cnt.toNat → cnt ≠ 0 → s.operands us → ((∃ x ∈ us, x ≠ 0) ∨ zok = true) →
    exec (.seedKey 0x19 zok cnt i) s = .next (s.stepped i (.mt19937w64 (mtByArray mt64Params 312 us)))) ∧
  (∀ key : List Word32, (mtByArray mt32Params 624 key).mt[0] = 0x80000000 ∧
    (mtByArray mt32Params 624 key).mti.val = 624) ∧
  (∀ key : List Word, (mtByArray mt64Params 312 key).mt[0] = 0x8000000000000000 ∧
    (mtByArray mt64Params 312 key).mti.val = 312) ∧
  (∀ key : List Word32, key ≠ [] →
    let first := (keyTurnFirst 30 1664525 key)^[max 624 key.length] ((mtGenrand mt32Params 624 19650218).mt, 1, 0)
    let second := (keyTurnSecond 30 1566083941)^[623] (first.1, first.2.1)
    mtByArray mt32Params 624 key = ⟨second.1.setIfInBounds 0 0x80000000, Fin.last 624⟩) ∧
  (∀ key : List Word, key ≠ [] →
    let first :=
      (keyTurnFirst 62 3935559000370003845 key)^[max 312 key.length] ((mtGenrand mt64Params 312 19650218).mt, 1, 0)
    let second := (keyTurnSecond 62 2862933555777941757)^[311] (first.1, first.2.1)
    mtByArray mt64Params 312 key = ⟨second.1.setIfInBounds 0 0x8000000000000000, Fin.last 312⟩)

/-- SEED_ENTROPY (R169), for every value the entropy port may give: one draw per element, in order; if every element is 0
the command is refused with InvalidSeed, and otherwise the elements seed the instance. The count of words drawn is the
model's own field (log entry 9). -/
def Obligations.SeedEntropyCompletes : Prop :=
  ∀ (s : State) (var : BitVec 6) (i : BitVec 4) (v : Variant), i.toNat < s.ninst → variantOfCode? var = some v →
    let drawn := { s with draws := s.draws + seedCount v }
    let e := (List.range (seedCount v)).map fun j =>
      BitVec.ofNat 64 ((Config.entropy (s.draws + j)).toNat % 2 ^ elementWidth v)
    exec (.seedEntropy var i) s =
      .next (if (e.all fun x => decide (x = 0)) = true then drawn.refusedAs 1 else drawn.stepped i (initEngine v e))

/-- R222, R248, R300, R303, R382, R402, R425, R429: the state each variant's seeding rule makes of its seed words. -/
def Obligations.SeedFormulas : Prop :=
  (∀ a : Word, initEngine .splitmix64 [a] = .splitmix64 a) ∧
  (∀ u : Vector Word 2, initEngine .xoroshiro128p u.toList = .xoroshiro128p u ∧
    initEngine .xoroshiro128pp u.toList = .xoroshiro128pp u ∧
    initEngine .xoroshiro128ss u.toList = .xoroshiro128ss u) ∧
  (∀ u : Vector Word 4, initEngine .xoshiro256p u.toList = .xoshiro256p u ∧
    initEngine .xoshiro256pp u.toList = .xoshiro256pp u ∧ initEngine .xoshiro256ss u.toList = .xoshiro256ss u) ∧
  (∀ u : Vector Word 8, initEngine .xoshiro512p u.toList = .xoshiro512p u ∧
    initEngine .xoshiro512pp u.toList = .xoshiro512pp u ∧ initEngine .xoshiro512ss u.toList = .xoshiro512ss u) ∧
  (∀ u : Vector Word 16, initEngine .xoroshiro1024s u.toList = .xoroshiro1024s ⟨u, 0⟩ ∧
    initEngine .xoroshiro1024pp u.toList = .xoroshiro1024pp ⟨u, 0⟩ ∧
    initEngine .xoroshiro1024ss u.toList = .xoroshiro1024ss ⟨u, 0⟩) ∧
  (∀ a b : Word, let inc := (b <<< 1) ||| 1
    initEngine .pcg32 [a, b] = .pcg32 ⟨(inc + a) * 0x5851F42D4C957F2D + inc, inc⟩) ∧
  (∀ a b c d : Word, let inc : Word128 := ((d ++ c) <<< 1) ||| 1
    initEngine .pcg64 [a, b, c, d] =
      .pcg64 ⟨(inc + (b ++ a)) * 0x2360ED051FC65DA44385DF649FCCF645 + inc, inc⟩) ∧
  (∀ a : Word, ∃ x : Sfc, initEngine .sfc64 [a] = .sfc64 x ∧ x.counter = 13 ∧
    x = (fun y => (sfcNext y).2)^[12] ⟨a, a, a, 1⟩) ∧
  (∀ a : Word, initEngine .jsf64 [a] = .jsf64 ((fun y => (jsfNext y).2)^[20] ⟨0xF1EA5EED, a, a, a⟩)) ∧
  (∀ a b c : Word, initEngine .mwc128 [a] = .mwc128 ⟨#v[a], 1⟩ ∧ initEngine .mwc192 [a, b] = .mwc192 ⟨#v[a, b], 1⟩ ∧
    initEngine .mwc256 [a, b, c] = .mwc256 ⟨#v[a, b, c], 1⟩ ∧ initEngine .gmwc128 [a] = .gmwc128 ⟨a, 1⟩)

/-- R341, R351: the array `mt_genrand` makes, word by word, and mti = N. -/
def Obligations.MersenneSeedArray : Prop :=
  (∀ s : Word32, (mtGenrand mt32Params 624 s).mt[0] = s ∧ (mtGenrand mt32Params 624 s).mti.val = 624 ∧
    ∀ (k : Nat) (h : k + 1 < 624), let m := (mtGenrand mt32Params 624 s).mt
      m[k + 1] = 1812433253 * (m[k] ^^^ (m[k] >>> 30)) + BitVec.ofNat 32 (k + 1)) ∧
  (∀ s : Word, (mtGenrand mt64Params 312 s).mt[0] = s ∧ (mtGenrand mt64Params 312 s).mti.val = 312 ∧
    ∀ (k : Nat) (h : k + 1 < 312), let m := (mtGenrand mt64Params 312 s).mt
      m[k + 1] = 6364136223846793005 * (m[k] ^^^ (m[k] >>> 62)) + BitVec.ofNat 64 (k + 1))

/-! ### Output (40_commands.md R171 to R173, 41 to 48) -/

/-- R171, R172: NEXT answers the next native output, or packs two, in order, on the 32-bit variants; it never fails on a
seeded instance. The block's RAW64_PACK is LOW_FIRST. -/
def Obligations.NextCompletes : Prop :=
  (∀ (s : State) (i : BitVec 4) (e : Engine), s.holds i e → engineVariant e ∉ [Variant.pcg32, .mt19937] →
    exec (.next i) s = .next (s.answered i (nextNative e).2 (nextNative e).1)) ∧
  (∀ (s : State) (i : BitVec 4) (e : Engine), s.holds i e → engineVariant e ∈ [Variant.pcg32, .mt19937] →
    let o1 := nextNative e
    let o2 := nextNative o1.2
    let low : Word32 := if s.params.raw64Pack = .lowFirst then o1.1.setWidth 32 else o2.1.setWidth 32
    let high : Word32 := if s.params.raw64Pack = .lowFirst then o2.1.setWidth 32 else o1.1.setWidth 32
    exec (.next i) s = .next (s.answered i o2.2 (high ++ low))) ∧
  (∀ (s : State) (i : BitVec 4), i.toNat < s.ninst → (s.inst i).valid = false →
    exec (.next i) s = .next (s.refusedAs 4)) ∧
  State.reset.params.raw64Pack = .lowFirst

/-- R173: NEXT32 answers one native output, zero-extended, on PCG32 and MT19937; on the others it is unsupported. -/
def Obligations.Next32Completes : Prop :=
  (∀ (s : State) (i : BitVec 4) (e : Engine), s.holds i e → engineVariant e ∈ [Variant.pcg32, .mt19937] →
    (nextNative e).1.toNat < 2 ^ 32 ∧ exec (.next32 i) s = .next (s.answered i (nextNative e).2 (nextNative e).1)) ∧
  (∀ (s : State) (i : BitVec 4) (e : Engine), s.holds i e → engineVariant e ∉ [Variant.pcg32, .mt19937] →
    exec (.next32 i) s = .next (s.refusedAs 2)) ∧
  (∀ (s : State) (i : BitVec 4), i.toNat < s.ninst → (s.inst i).valid = false →
    exec (.next32 i) s = .next (s.refusedAs 4))

/-- R221, R381, R401: NEXT on SPLITMIX64, SFC64 and JSF64. -/
def Obligations.AddRotateNext : Prop :=
  (∀ (s : State) (i : BitVec 4) (x : Word), s.holds i (.splitmix64 x) →
    let x' := x + 0x9E3779B97F4A7C15
    let z1 := (x' ^^^ (x' >>> 30)) * 0xBF58476D1CE4E5B9
    let z2 := (z1 ^^^ (z1 >>> 27)) * 0x94D049BB133111EB
    exec (.next i) s = .next (s.answered i (.splitmix64 x') (z2 ^^^ (z2 >>> 31)))) ∧
  ((∀ (s : State) (i : BitVec 4) (a b c n : Word), s.holds i (.sfc64 ⟨a, b, c, n⟩) →
    exec (.next i) s =
      .next (s.answered i
        (.sfc64 ⟨b ^^^ (b >>> 11), c + (c <<< 3), c.rotateLeft 24 + (a + b + n), n + 1⟩) (a + b + n))) ∧
  (∀ (s : State) (i : BitVec 4) (a b c d : Word), s.holds i (.jsf64 ⟨a, b, c, d⟩) →
    let e := a - b.rotateLeft 7
    let a' := b ^^^ c.rotateLeft 13
    exec (.next i) s =
      .next (s.answered i (.jsf64 ⟨a', c + d.rotateLeft 37, d + e, e + a'⟩) (e + a'))))

/-- R231 to R235: NEXT on the three XOROSHIRO128 variants, the output from the state before the step. -/
def Obligations.Xoroshiro128Next : Prop :=
  ∀ (s : State) (i : BitVec 4) (a b : Word),
    (s.holds i (.xoroshiro128p #v[a, b]) →
      exec (.next i) s = .next (s.answered i
        (.xoroshiro128p #v[a.rotateLeft 24 ^^^ (b ^^^ a) ^^^ ((b ^^^ a) <<< 16), (b ^^^ a).rotateLeft 37]) (a + b))) ∧
    (s.holds i (.xoroshiro128ss #v[a, b]) →
      exec (.next i) s = .next (s.answered i
        (.xoroshiro128ss #v[a.rotateLeft 24 ^^^ (b ^^^ a) ^^^ ((b ^^^ a) <<< 16), (b ^^^ a).rotateLeft 37])
        ((a * 5).rotateLeft 7 * 9))) ∧
    (s.holds i (.xoroshiro128pp #v[a, b]) →
      exec (.next i) s = .next (s.answered i
        (.xoroshiro128pp #v[a.rotateLeft 49 ^^^ (b ^^^ a) ^^^ ((b ^^^ a) <<< 21), (b ^^^ a).rotateLeft 28])
        ((a + b).rotateLeft 17 + a)))

/-- R236 to R243: NEXT on the XOSHIRO256 and XOSHIRO512 variants, the steps written over the words before them. -/
def Obligations.XoshiroNext : Prop :=
  (∀ (s : State) (i : BitVec 4) (a b c d : Word),
    let w : Vector Word 4 := #v[a ^^^ d ^^^ b, b ^^^ c ^^^ a, c ^^^ a ^^^ (b <<< 17), (d ^^^ b).rotateLeft 45]
    (s.holds i (.xoshiro256p #v[a, b, c, d]) →
      exec (.next i) s = .next (s.answered i (.xoshiro256p w) (a + d))) ∧
    (s.holds i (.xoshiro256pp #v[a, b, c, d]) →
      exec (.next i) s = .next (s.answered i (.xoshiro256pp w) ((a + d).rotateLeft 23 + a))) ∧
    (s.holds i (.xoshiro256ss #v[a, b, c, d]) →
      exec (.next i) s = .next (s.answered i (.xoshiro256ss w) ((b * 5).rotateLeft 7 * 9)))) ∧
  (∀ (s : State) (i : BitVec 4) (x0 x1 x2 x3 x4 x5 x6 x7 : Word),
    let w : Vector Word 8 :=
      #v[x0 ^^^ x6, x1 ^^^ x2 ^^^ x0, x2 ^^^ x0, x3 ^^^ x4, x4 ^^^ x5 ^^^ x1, x5 ^^^ x1, x6 ^^^ x7 ^^^ x3 ^^^ (x1 <<< 11),
        (x7 ^^^ x3).rotateLeft 21]
    (s.holds i (.xoshiro512p #v[x0, x1, x2, x3, x4, x5, x6, x7]) →
      exec (.next i) s = .next (s.answered i (.xoshiro512p w) (x0 + x2))) ∧
    (s.holds i (.xoshiro512pp #v[x0, x1, x2, x3, x4, x5, x6, x7]) →
      exec (.next i) s = .next (s.answered i (.xoshiro512pp w) ((x0 + x2).rotateLeft 17 + x2))) ∧
    (s.holds i (.xoshiro512ss #v[x0, x1, x2, x3, x4, x5, x6, x7]) →
      exec (.next i) s = .next (s.answered i (.xoshiro512ss w) ((x1 * 5).rotateLeft 7 * 9))))

/-- R244 to R247: NEXT on the three XOROSHIRO1024 variants: the words at p and p + 1 (modulo 16) are replaced and p
advances; the output is of the two words before the step. -/
def Obligations.Xoroshiro1024Next : Prop :=
  ∀ (s : State) (i : BitVec 4) (x : Vector Word 16) (p : BitVec 4),
    let q := (p + 1).toNat
    let s0 := x.getD q 0
    let s15 := x.getD p.toNat 0
    let y := s15 ^^^ s0
    let w : Vector Word 16 := Vector.ofFn fun k =>
      if k.val = p.toNat then s0.rotateLeft 25 ^^^ y ^^^ (y <<< 27) else if k.val = q then y.rotateLeft 36 else x[k]
    (s.holds i (.xoroshiro1024s ⟨x, p⟩) →
      exec (.next i) s = .next (s.answered i (.xoroshiro1024s ⟨w, p + 1⟩) (s0 * 0x9E3779B97F4A7C13))) ∧
    (s.holds i (.xoroshiro1024pp ⟨x, p⟩) →
      exec (.next i) s = .next (s.answered i (.xoroshiro1024pp ⟨w, p + 1⟩) ((s0 + s15).rotateLeft 23 + s15))) ∧
    (s.holds i (.xoroshiro1024ss ⟨x, p⟩) →
      exec (.next i) s = .next (s.answered i (.xoroshiro1024ss ⟨w, p + 1⟩) ((s0 * 5).rotateLeft 7 * 9)))

/-- R302, R305: NEXT32 on PCG32 takes its output from the state before the step, NEXT on PCG64 from the state after it
(R306). -/
def Obligations.PcgNext : Prop :=
  (∀ (s : State) (i : BitVec 4) (st inc : Word), s.holds i (.pcg32 ⟨st, inc⟩) →
    let xs : Word32 := (((st >>> 18) ^^^ st) >>> 27).setWidth 32
    exec (.next32 i) s =
      .next (s.answered i (.pcg32 ⟨st * 6364136223846793005 + inc, inc⟩)
        ((xs.rotateRight (st >>> 59).toNat).setWidth 64))) ∧
  (∀ (s : State) (i : BitVec 4) (st inc : Word128), s.holds i (.pcg64 ⟨st, inc⟩) →
    let st' := st * 0x2360ED051FC65DA44385DF649FCCF645 + inc
    exec (.next i) s =
      .next (s.answered i (.pcg64 ⟨st', inc⟩)
        ((st'.extractLsb' 64 64 ^^^ st'.extractLsb' 0 64).rotateRight (st' >>> 122).toNat)))

/-- R345, R355: the twist pass, word by word: the words k + 1 and k + M are taken from the old array where they have not
been rewritten yet, and from the new one where they have; mti is then 0. -/
def Obligations.TwistRecurrence : Prop :=
  (∀ (old : Vector Word32 624) (k : Nat), k < 624 →
    let new := mtTwist mt32Params old
    let y := (old.getD k 0 &&& 0x80000000) ||| ((if k + 1 < 624 then old.getD (k + 1) 0 else new.getD 0 0) &&& 0x7FFFFFFF)
    new.getD k 0 = (if k + 397 < 624 then old.getD (k + 397) 0 else new.getD (k + 397 - 624) 0) ^^^ (y >>> 1) ^^^
      (if y &&& 1 = 1 then 0x9908B0DF else 0)) ∧
  (∀ (old : Vector Word 312) (k : Nat), k < 312 →
    let new := mtTwist mt64Params old
    let y := (old.getD k 0 &&& 0xFFFFFFFF80000000) |||
      ((if k + 1 < 312 then old.getD (k + 1) 0 else new.getD 0 0) &&& 0x7FFFFFFF)
    new.getD k 0 = (if k + 156 < 312 then old.getD (k + 156) 0 else new.getD (k + 156 - 312) 0) ^^^ (y >>> 1) ^^^
      (if y &&& 1 = 1 then 0xB5026F5AA96619E9 else 0)) ∧
  (∀ old : Vector Word32 624, mtReady mt32Params ⟨old, Fin.last 624⟩ = ⟨mtTwist mt32Params old, 0⟩) ∧
  (∀ old : Vector Word 312, mtReady mt64Params ⟨old, Fin.last 312⟩ = ⟨mtTwist mt64Params old, 0⟩)

/-- R344, R346, R354, R356: the next native output of an MT variant: if mti = N the array is twisted and mti is 0, then
the word at mti is tempered and mti advances. -/
def Obligations.MersenneNext : Prop :=
  (∀ (s : State) (i : BitVec 4) (m : Mt 32 624), s.holds i (.mt19937 m) →
    let mt := if m.mti.val = 624 then mtTwist mt32Params m.mt else m.mt
    let k := if m.mti.val = 624 then 0 else m.mti.val
    let y := mt.getD k 0
    let y1 := y ^^^ (y >>> 11)
    let y2 := y1 ^^^ ((y1 <<< 7) &&& 0x9D2C5680)
    let y3 := y2 ^^^ ((y2 <<< 15) &&& 0xEFC60000)
    ∃ m' : Mt 32 624, m'.mt = mt ∧ m'.mti.val = k + 1 ∧
      exec (.next32 i) s = .next (s.answered i (.mt19937 m') ((y3 ^^^ (y3 >>> 18)).setWidth 64))) ∧
  (∀ (s : State) (i : BitVec 4) (m : Mt 64 312), s.holds i (.mt19937w64 m) →
    let mt := if m.mti.val = 312 then mtTwist mt64Params m.mt else m.mt
    let k := if m.mti.val = 312 then 0 else m.mti.val
    let x := mt.getD k 0
    let x1 := x ^^^ ((x >>> 29) &&& 0x5555555555555555)
    let x2 := x1 ^^^ ((x1 <<< 17) &&& 0x71D67FFFEDA60000)
    let x3 := x2 ^^^ ((x2 <<< 37) &&& 0xFFF7EEE000000000)
    ∃ m' : Mt 64 312, m'.mt = mt ∧ m'.mti.val = k + 1 ∧
      exec (.next i) s = .next (s.answered i (.mt19937w64 m') (x3 ^^^ (x3 >>> 43))))

/-- R422 to R424, R428: NEXT on MWC128, MWC192 and MWC256, with the exact product and the output of the state before the
step, and on GMWC128, with the exact sums, the bound that makes the carry fit, and a low half of 0, so that the shift
loses nothing. -/
def Obligations.MultiplyCarryNext : Prop :=
  ((∀ (s : State) (i : BitVec 4) (x c : Word), s.holds i (.mwc128 ⟨#v[x], c⟩) →
    let t := 0xFFEBB71D94FCDAF9 * x.toNat + c.toNat
    t < 2 ^ 128 ∧ exec (.next i) s = .next (s.answered i
      (.mwc128 ⟨#v[BitVec.ofNat 64 (t % 2 ^ 64)], BitVec.ofNat 64 (t / 2 ^ 64)⟩) (x ^^^ (x <<< 32)))) ∧
  (∀ (s : State) (i : BitVec 4) (x y c : Word), s.holds i (.mwc192 ⟨#v[x, y], c⟩) →
    let t := 0xFFA04E67B3C95D86 * x.toNat + c.toNat
    t < 2 ^ 128 ∧ exec (.next i) s = .next (s.answered i
      (.mwc192 ⟨#v[y, BitVec.ofNat 64 (t % 2 ^ 64)], BitVec.ofNat 64 (t / 2 ^ 64)⟩) y)) ∧
  (∀ (s : State) (i : BitVec 4) (x y z c : Word), s.holds i (.mwc256 ⟨#v[x, y, z], c⟩) →
    let t := 0xFFF62CF2CCC0CDAF * x.toNat + c.toNat
    t < 2 ^ 128 ∧ exec (.next i) s = .next (s.answered i
      (.mwc256 ⟨#v[y, z, BitVec.ofNat 64 (t % 2 ^ 64)], BitVec.ofNat 64 (t / 2 ^ 64)⟩) z))) ∧
  (∀ (s : State) (i : BitVec 4) (x c : Word), s.holds i (.gmwc128 ⟨x, c⟩) →
    let t := 0xFF002AAE7D81A646 * x.toNat + c.toNat
    let x' := 0x9B1EEA3792A42C61 * BitVec.ofNat 64 t
    let u := t + 0x007D084A4D80885F * x'.toNat
    u ≤ 0xFF7D32F8CB022EA50082CD0734FDD15A ∧ u % 2 ^ 64 = 0 ∧
      exec (.next i) s = .next (s.answered i (.gmwc128 ⟨x', BitVec.ofNat 64 (u / 2 ^ 64)⟩) x'))

/-! ### Jumps (40_commands.md R174 to R176, 43, 44, 49) -/

/-- R174, R175: which variants have a jump and a long jump, and that the command completes on them, writes the jumped
state and does not write RES. On the twelve xoshiro/xoroshiro variants the jumped state is the bit walk of R281 or R282
over the tables of R250 to R254, letter for letter, with the step of the variant's NEXT (R280); JumpPolynomial says what
the walk computes. The other variants' jumped states are those of PcgJumpsAddUp, MwcJumpIsStride and GmwcJumpIsStride. -/
def Obligations.JumpsComplete : Prop :=
  (∀ (s : State) (i : BitVec 4) (e e' : Engine), s.holds i e →
    (jumpEngine e = some e' → engineVariant e' = engineVariant e ∧ exec (.jump i) s = .next (s.stepped i e')) ∧
    (longJumpEngine e = some e' →
      engineVariant e' = engineVariant e ∧ exec (.longJump i) s = .next (s.stepped i e'))) ∧
  (∀ e : Engine,
    ((jumpEngine e).isSome = true ↔
      engineVariant e ∉ [Variant.splitmix64, .mt19937, .mt19937w64, .sfc64, .jsf64]) ∧
    ((longJumpEngine e).isSome = true ↔
      engineVariant e ∉ [Variant.splitmix64, .mt19937, .mt19937w64, .sfc64, .jsf64, .gmwc128])) ∧
  (∀ (s : State) (i : BitVec 4) (x : Vector Word 2), ∀ variant ∈ [Engine.xoroshiro128p, .xoroshiro128ss],
    (nextNative (variant x)).2 = variant (stepXoro128 x) ∧
    (s.holds i (variant x) →
      exec (.jump i) s = .next (s.stepped i (variant (gf2Jump stepXoro128
        [0xDF900294D8F554A5, 0x170865DF4B3201FC] x))) ∧
      exec (.longJump i) s = .next (s.stepped i (variant (gf2Jump stepXoro128
        [0xD2A98B26625EEE7B, 0xDDDF9B1090AA7AC1] x))))) ∧
  (∀ (s : State) (i : BitVec 4) (x : Vector Word 2), ∀ variant ∈ [Engine.xoroshiro128pp],
    (nextNative (variant x)).2 = variant (stepXoro128pp x) ∧
    (s.holds i (variant x) →
      exec (.jump i) s = .next (s.stepped i (variant (gf2Jump stepXoro128pp
        [0x2BD7A6A6E99C2DDC, 0x0992CCAF6A6FCA05] x))) ∧
      exec (.longJump i) s = .next (s.stepped i (variant (gf2Jump stepXoro128pp
        [0x360FD5F2CF8D5D99, 0x9C6E6877736C46E3] x))))) ∧
  (∀ (s : State) (i : BitVec 4) (x : Vector Word 4), ∀ variant ∈ [Engine.xoshiro256p, .xoshiro256pp, .xoshiro256ss],
    (nextNative (variant x)).2 = variant (step256 x) ∧
    (s.holds i (variant x) →
      exec (.jump i) s = .next (s.stepped i (variant (gf2Jump step256
        [0x180EC6D33CFD0ABA, 0xD5A61266F0C9392C, 0xA9582618E03FC9AA, 0x39ABDC4529B1661C] x))) ∧
      exec (.longJump i) s = .next (s.stepped i (variant (gf2Jump step256
        [0x76E15D3EFEFDCBBF, 0xC5004E441C522FB3, 0x77710069854EE241, 0x39109BB02ACBE635] x))))) ∧
  (∀ (s : State) (i : BitVec 4) (x : Vector Word 8), ∀ variant ∈ [Engine.xoshiro512p, .xoshiro512pp, .xoshiro512ss],
    (nextNative (variant x)).2 = variant (step512 x) ∧
    (s.holds i (variant x) →
      exec (.jump i) s = .next (s.stepped i (variant (gf2Jump step512
        [0x33ED89B6E7A353F9, 0x760083D7955323BE, 0x2837F2FBB5F22FAE, 0x4B8C5674D309511C,
         0xB11AC47A7BA28C25, 0xF1BE7667092BCC1C, 0x53851EFDB6DF0AAF, 0x1EBBC8B23EAF25DB] x))) ∧
      exec (.longJump i) s = .next (s.stepped i (variant (gf2Jump step512
        [0x11467FEF8F921D28, 0xA2A819F2E79C8EA8, 0xA8299FC284B3959A, 0xB4D347340CA63EE1,
         0x1CB0940BEDBFF6CE, 0xD956C5C4FA1F8E17, 0x915E38FD4EDA93BC, 0x5B3CCDFA5D7DACA5] x))))) ∧
  (∀ (s : State) (i : BitVec 4) (x : Xoro1024), ∀ variant ∈ [Engine.xoroshiro1024s, .xoroshiro1024pp, .xoroshiro1024ss],
    (nextNative (variant x)).2 = variant (step1024 x) ∧
    (s.holds i (variant x) →
      exec (.jump i) s = .next (s.stepped i (variant (gf2Jump1024
        [0x931197D8E3177F17, 0xB59422E0B9138C5F, 0xF06A6AFB49D668BB, 0xACB8A6412C8A1401,
         0x12304EC85F0B3468, 0xB7DFE7079209891E, 0x405B7EEC77D9EB14, 0x34EAD68280C44E4A,
         0xE0E4BA3E0AC9E366, 0x8F46EDA8348905B7, 0x328BF4DBAD90D6FF, 0xC8FD6FB31C9EFFC3,
         0xE899D452D4B67652, 0x45F387286ADE3205, 0x03864F454A8920BD, 0xA68FA28725B1B384] x))) ∧
      exec (.longJump i) s = .next (s.stepped i (variant (gf2Jump1024
        [0x7374156360BBF00F, 0x4630C2EFA3B3C1F6, 0x6654183A892786B1, 0x94F7BFCBFB0F1661,
         0x27D8243D3D13EB2D, 0x9701730F3DFB300F, 0x2F293BAAE6F604AD, 0xA661831CB60CD8B6,
         0x68280C77D9FE008C, 0x50554160F5BA9459, 0x2FC20B17EC7B2A9A, 0x49189BBDC8EC9F8F,
         0x92A65BCA41852CC1, 0xF46820DD0509C12A, 0x52B00C35FBF92185, 0x1E5B3B7F589E03C1] x)))))

/-- R281, R282: the bit walk computes the table's polynomial of the step: word j of the result is the exclusive or, over
the bits that are set in the table, of word j of the state after as many steps as the bit's number. For the 16-word
variants the words are those the generator sees from p, and p is unchanged. -/
def Obligations.JumpPolynomial : Prop :=
  (∀ (n : Nat) (step : Vector Word n → Vector Word n) (table : List Word) (s : Vector Word n) (j : Fin n),
    (gf2Jump step table s)[j] =
      (List.range (64 * table.length)).foldl
        (fun acc b => if (table.getD (b / 64) 0).getLsbD (b % 64) then acc ^^^ (step^[b] s)[j] else acc) 0) ∧
  (∀ (table : List Word) (x : Xoro1024), (gf2Jump1024 table x).p = x.p ∧
    ∀ j : Nat, j < 16 → (gf2Jump1024 table x).s.getD ((j + x.p.toNat) % 16) 0 =
      (List.range (64 * table.length)).foldl
        (fun acc b =>
          if (table.getD (b / 64) 0).getLsbD (b % 64) then
            acc ^^^ (step1024^[b] x).s.getD ((j + (step1024^[b] x).p.toNat) % 16) 0
          else acc) 0)

/-- The xoshiro/xoroshiro jump is linear, whatever the table, and commutes with the step: a jump before or after a NEXT
leaves the same state (R285). -/
def Obligations.JumpLinear : Prop :=
  (∀ (table : List Word) (s t : Vector Word 2), ∀ step ∈ [stepXoro128, stepXoro128pp],
    gf2Jump step table (xorWords s t) = xorWords (gf2Jump step table s) (gf2Jump step table t) ∧
      gf2Jump step table (step s) = step (gf2Jump step table s)) ∧
  (∀ (table : List Word) (s t : Vector Word 4),
    gf2Jump step256 table (xorWords s t) = xorWords (gf2Jump step256 table s) (gf2Jump step256 table t) ∧
      gf2Jump step256 table (step256 s) = step256 (gf2Jump step256 table s)) ∧
  (∀ (table : List Word) (s t : Vector Word 8),
    gf2Jump step512 table (xorWords s t) = xorWords (gf2Jump step512 table s) (gf2Jump step512 table t) ∧
      gf2Jump step512 table (step512 s) = step512 (gf2Jump step512 table s)) ∧
  (∀ (table : List Word) (x : Xoro1024) (t : Vector Word 16),
    (gf2Jump1024 table ⟨xorWords x.s t, x.p⟩).s =
        xorWords (gf2Jump1024 table x).s (gf2Jump1024 table ⟨t, x.p⟩).s ∧
      gf2Jump1024 table (step1024 x) = step1024 (gf2Jump1024 table x))

/-- R249: the all-zero words of a xoshiro/xoroshiro state are a fixed point of every step and of every jump, their
output is 0, and no other state steps to them. -/
def Obligations.ZeroState : Prop :=
  (∀ s : Vector Word 2, ∀ step ∈ [stepXoro128, stepXoro128pp],
    (step s = Vector.replicate 2 0 ↔ s = Vector.replicate 2 0)) ∧
  (∀ s : Vector Word 4, step256 s = Vector.replicate 4 0 ↔ s = Vector.replicate 4 0) ∧
  (∀ s : Vector Word 8, step512 s = Vector.replicate 8 0 ↔ s = Vector.replicate 8 0) ∧
  (∀ x : Xoro1024, (step1024 x).s = Vector.replicate 16 0 ↔ x.s = Vector.replicate 16 0) ∧
  (∀ p : BitVec 4, ∀ e ∈ [Engine.xoroshiro128p (Vector.replicate 2 0), .xoroshiro128pp (Vector.replicate 2 0),
      .xoroshiro128ss (Vector.replicate 2 0), .xoshiro256p (Vector.replicate 4 0), .xoshiro256pp (Vector.replicate 4 0),
      .xoshiro256ss (Vector.replicate 4 0), .xoshiro512p (Vector.replicate 8 0), .xoshiro512pp (Vector.replicate 8 0),
      .xoshiro512ss (Vector.replicate 8 0), .xoroshiro1024s ⟨Vector.replicate 16 0, p⟩,
      .xoroshiro1024pp ⟨Vector.replicate 16 0, p⟩, .xoroshiro1024ss ⟨Vector.replicate 16 0, p⟩],
    (nextNative e).1 = 0 ∧ jumpEngine e = some e ∧ longJumpEngine e = some e)

/-- JUMP on the XOROSHIRO128 variants leaves the state that 2^64 steps leave, and LONG_JUMP the state that 2^96 steps
leave (R183, R284): the tables of R250 and R251 are right. -/
def Obligations.Xoroshiro128JumpIsStride : Prop :=
  ∀ (s : State) (i : BitVec 4) (v : Vector Word 2),
    (s.holds i (.xoroshiro128p v) →
      exec (.jump i) s = .next (s.stepped i (.xoroshiro128p (stepXoro128^[2 ^ 64] v))) ∧
      exec (.longJump i) s = .next (s.stepped i (.xoroshiro128p (stepXoro128^[2 ^ 96] v)))) ∧
    (s.holds i (.xoroshiro128ss v) →
      exec (.jump i) s = .next (s.stepped i (.xoroshiro128ss (stepXoro128^[2 ^ 64] v))) ∧
      exec (.longJump i) s = .next (s.stepped i (.xoroshiro128ss (stepXoro128^[2 ^ 96] v)))) ∧
    (s.holds i (.xoroshiro128pp v) →
      exec (.jump i) s = .next (s.stepped i (.xoroshiro128pp (stepXoro128pp^[2 ^ 64] v))) ∧
      exec (.longJump i) s = .next (s.stepped i (.xoroshiro128pp (stepXoro128pp^[2 ^ 96] v))))

/-- R176 and R310, R311: ADVANCE by delta leaves the state that delta LCG steps leave, for every state and every delta of
the operand's width; RES and inc are unchanged. -/
def Obligations.AdvanceIsStepping : Prop :=
  (∀ (s : State) (i : BitVec 4) (g : Lcg 64) (delta : Word), s.holds i (.pcg32 g) → s.opnd 0 = delta →
    exec (.advance i) s = .next (s.stepped i (.pcg32
      ((fun x : Lcg 64 => ⟨x.state * 0x5851F42D4C957F2D + x.inc, x.inc⟩)^[delta.toNat] g)))) ∧
  (∀ (s : State) (i : BitVec 4) (g : Lcg 128) (lo hi : Word), s.holds i (.pcg64 g) →
    s.opnd 0 = lo → s.opnd 1 = hi →
    exec (.advance i) s = .next (s.stepped i (.pcg64
      ((fun x : Lcg 128 => ⟨x.state * 0x2360ED051FC65DA44385DF649FCCF645 + x.inc, x.inc⟩)^[lo.toNat + hi.toNat * 2 ^ 64]
        g))))

/-- R311, R312: `pcg_advance` by 0 changes nothing, two advances add up modulo 2^w (for every inc), and an advance by
2^w - k undoes k steps; JUMP and LONG_JUMP on PCG are an advance by the OPEN deltas, and k of them leave the state of one
advance by k times the delta modulo 2^w, whatever the deltas are. -/
def Obligations.PcgJumpsAddUp : Prop :=
  ((∀ (g : Lcg 64) (a b : Word), lcgAdvance pcgMult32 0 g = g ∧
    lcgAdvance pcgMult32 b (lcgAdvance pcgMult32 a g) = lcgAdvance pcgMult32 (a + b) g ∧
    lcgAdvance pcgMult32 (0 - a) ((lcgStep pcgMult32)^[a.toNat] g) = g) ∧
  (∀ (g : Lcg 128) (a b : Word128), lcgAdvance pcgMult64 0 g = g ∧
    lcgAdvance pcgMult64 b (lcgAdvance pcgMult64 a g) = lcgAdvance pcgMult64 (a + b) g ∧
    lcgAdvance pcgMult64 (0 - a) ((lcgStep pcgMult64)^[a.toNat] g) = g)) ∧
  ((∀ (s : State) (i : BitVec 4) (g : Lcg 64), s.holds i (.pcg32 g) →
    exec (.jump i) s = .next (s.stepped i (.pcg32 (lcgAdvance pcgMult32 Config.pcg32JumpDelta g))) ∧
    exec (.longJump i) s = .next (s.stepped i (.pcg32 (lcgAdvance pcgMult32 Config.pcg32LongJumpDelta g)))) ∧
  (∀ (s : State) (i : BitVec 4) (g : Lcg 128), s.holds i (.pcg64 g) →
    exec (.jump i) s = .next (s.stepped i (.pcg64 (lcgAdvance pcgMult64 Config.pcg64JumpDelta g))) ∧
    exec (.longJump i) s = .next (s.stepped i (.pcg64 (lcgAdvance pcgMult64 Config.pcg64LongJumpDelta g)))) ∧
  (∀ (k : Nat) (g : Lcg 64) (d : Word),
    (lcgAdvance pcgMult32 d)^[k] g = lcgAdvance pcgMult32 (BitVec.ofNat 64 k * d) g) ∧
  (∀ (k : Nat) (g : Lcg 128) (d : Word128),
    (lcgAdvance pcgMult64 d)^[k] g = lcgAdvance pcgMult64 (BitVec.ofNat 128 k * d) g))

/-- The states on which the MWC jump equals stepping: seeding makes them, and NEXT, JUMP and LONG_JUMP keep them
(R456). On every state, canonical or not, each of the six jumps equals its stride N of steps exactly when the packed value
after those N steps is below M. -/
def Obligations.MwcCanonical : Prop :=
  (∀ a b c : Word, mwcCanonical mwc128A (mwcInit 1 [a]) ∧ mwcCanonical mwc192A (mwcInit 2 [a, b]) ∧
    mwcCanonical mwc256A (mwcInit 3 [a, b, c])) ∧
  (∀ m : Mwc 1, (mwcCanonical mwc128A m → mwcCanonical mwc128A (mwcStep mwc128A m)) ∧
    ∀ j, mwcCanonical mwc128A (mwcJump mwc128A j m)) ∧
  (∀ m : Mwc 2, (mwcCanonical mwc192A m → mwcCanonical mwc192A (mwcStep mwc192A m)) ∧
    ∀ j, mwcCanonical mwc192A (mwcJump mwc192A j m)) ∧
  (∀ m : Mwc 3, (mwcCanonical mwc256A m → mwcCanonical mwc256A (mwcStep mwc256A m)) ∧
    ∀ j, mwcCanonical mwc256A (mwcJump mwc256A j m)) ∧
  (∀ m : Mwc 1, (mwcJump mwc128A mwc128JumpConst m = (mwcStep mwc128A)^[2 ^ 64] m ↔
      mwcCanonical mwc128A ((mwcStep mwc128A)^[2 ^ 64] m)) ∧
    (mwcJump mwc128A mwc128LongJumpConst m = (mwcStep mwc128A)^[2 ^ 96] m ↔
      mwcCanonical mwc128A ((mwcStep mwc128A)^[2 ^ 96] m))) ∧
  (∀ m : Mwc 2, (mwcJump mwc192A mwc192JumpConst m = (mwcStep mwc192A)^[2 ^ 96] m ↔
      mwcCanonical mwc192A ((mwcStep mwc192A)^[2 ^ 96] m)) ∧
    (mwcJump mwc192A mwc192LongJumpConst m = (mwcStep mwc192A)^[2 ^ 144] m ↔
      mwcCanonical mwc192A ((mwcStep mwc192A)^[2 ^ 144] m))) ∧
  (∀ m : Mwc 3, (mwcJump mwc256A mwc256JumpConst m = (mwcStep mwc256A)^[2 ^ 128] m ↔
      mwcCanonical mwc256A ((mwcStep mwc256A)^[2 ^ 128] m)) ∧
    (mwcJump mwc256A mwc256LongJumpConst m = (mwcStep mwc256A)^[2 ^ 192] m ↔
      mwcCanonical mwc256A ((mwcStep mwc256A)^[2 ^ 192] m)))

/-- JUMP and LONG_JUMP on MWC128, MWC192 and MWC256 leave the state that the stride's number of steps leaves, on every
canonical state (R183, R452, R454, R456): the constants of R453 are right. -/
def Obligations.MwcJumpIsStride : Prop :=
  (∀ (s : State) (i : BitVec 4) (m : Mwc 1), s.holds i (.mwc128 m) → mwcCanonical mwc128A m →
    exec (.jump i) s = .next (s.stepped i (.mwc128 ((mwcStep mwc128A)^[2 ^ 64] m))) ∧
    exec (.longJump i) s = .next (s.stepped i (.mwc128 ((mwcStep mwc128A)^[2 ^ 96] m)))) ∧
  (∀ (s : State) (i : BitVec 4) (m : Mwc 2), s.holds i (.mwc192 m) → mwcCanonical mwc192A m →
    exec (.jump i) s = .next (s.stepped i (.mwc192 ((mwcStep mwc192A)^[2 ^ 96] m))) ∧
    exec (.longJump i) s = .next (s.stepped i (.mwc192 ((mwcStep mwc192A)^[2 ^ 144] m)))) ∧
  (∀ (s : State) (i : BitVec 4) (m : Mwc 3), s.holds i (.mwc256 m) → mwcCanonical mwc256A m →
    exec (.jump i) s = .next (s.stepped i (.mwc256 ((mwcStep mwc256A)^[2 ^ 128] m))) ∧
    exec (.longJump i) s = .next (s.stepped i (.mwc256 ((mwcStep mwc256A)^[2 ^ 192] m))))

/-- JUMP on GMWC128 leaves the state that 2^64 steps leave (R461, R462), on every state whose t = A1 x + c is below m:
seeding makes such states, and NEXT and JUMP keep them. -/
def Obligations.GmwcJumpIsStride : Prop :=
  (∀ (s : State) (i : BitVec 4) (g : Gmwc), s.holds i (.gmwc128 g) → gmwcT g < gmwcModulus →
    exec (.jump i) s = .next (s.stepped i (.gmwc128 ((fun x => (gmwcNext x).2)^[2 ^ 64] g)))) ∧
  (∀ a : Word, gmwcT (gmwcInit a) < gmwcModulus) ∧
  (∀ g : Gmwc, gmwcT g < gmwcModulus → gmwcT (gmwcNext g).2 < gmwcModulus) ∧
  (∀ (k : Nat) (g : Gmwc), gmwcT (gmwcJump k g) < gmwcModulus)

/-! ### Instances and state access (40_commands.md R177 to R180, R184) -/

/-- R177: CLONE copies VARIANT and S of the source into the destination, which becomes valid whatever it held; the source
is not advanced; DST = INST changes nothing; an unseeded source and an instance the block lacks are refused. -/
def Obligations.CloneCompletes : Prop :=
  (∀ (s : State) (i d : BitVec 4), i.toNat < s.ninst → d.toNat < s.ninst →
    (∀ e, s.inst i = { valid := true, engine := e } → d ≠ i → exec (.clone i d) s = .next (s.stepped d e)) ∧
    ((s.inst i).valid = true → d = i → exec (.clone i d) s = .next { s with err := 0, running := none }) ∧
    ((s.inst i).valid = false → exec (.clone i d) s = .next (s.refusedAs 4))) ∧
  (∀ (s : State) (i d : BitVec 4), s.ninst ≤ i.toNat ∨ s.ninst ≤ d.toNat →
    exec (.clone i d) s = .next (s.refusedAs 5))

/-- R184: after a CLONE, any sequence of commands that are not seeding commands, NOP and CLONE among them, applied to the
source and the same sequence applied to the copy, with the same operand writes of the host between the commands, answers
the same RES values and error codes and leaves equal states in the two; every other instance, and the memory, end alike
too. A CLONE into the instance takes its source from a third one: the source and the copy are the two compared. -/
def Obligations.CloneEquivalence : Prop :=
  ∀ (s : State) (a b : BitVec 4) (e : Engine), s.holds a e → b.toNat < s.ninst → a ≠ b →
    ∃ t, exec (.clone a b) s = .next t ∧
      ∀ acts : List SequenceAct,
        (∀ src, .command (.cloneFrom src) ∈ acts → src ≠ a ∧ src ≠ b) →
        ∃ x y, runOn a acts t = some x ∧ runOn b acts t = some y ∧ x.2 = y.2 ∧ x.1.inst a = y.1.inst b ∧
          x.1.mem = y.1.mem ∧ ∀ d, d ≠ a → d ≠ b → x.1.inst d = y.1.inst d

/-- R64: the state vector of each variant, index by index, and its length NSV (R50). -/
def Obligations.StateVectorLayout : Prop :=
  (∀ e : Engine, (stateVector e).length = stateWords (engineVariant e)) ∧
  (∀ x : Word, stateVector (.splitmix64 x) = [x]) ∧
  (∀ (v : Vector Word 2) (j : Fin 2), (stateVector (.xoroshiro128p v))[j.val]? = some v[j] ∧
    (stateVector (.xoroshiro128pp v))[j.val]? = some v[j] ∧ (stateVector (.xoroshiro128ss v))[j.val]? = some v[j]) ∧
  (∀ (v : Vector Word 4) (j : Fin 4), (stateVector (.xoshiro256p v))[j.val]? = some v[j] ∧
    (stateVector (.xoshiro256pp v))[j.val]? = some v[j] ∧ (stateVector (.xoshiro256ss v))[j.val]? = some v[j]) ∧
  (∀ (v : Vector Word 8) (j : Fin 8), (stateVector (.xoshiro512p v))[j.val]? = some v[j] ∧
    (stateVector (.xoshiro512pp v))[j.val]? = some v[j] ∧ (stateVector (.xoshiro512ss v))[j.val]? = some v[j]) ∧
  (∀ (v : Vector Word 16) (p : BitVec 4), ∀ sv ∈ [stateVector (.xoroshiro1024s ⟨v, p⟩),
      stateVector (.xoroshiro1024pp ⟨v, p⟩), stateVector (.xoroshiro1024ss ⟨v, p⟩)],
    (∀ j : Fin 16, sv[j.val]? = some v[j]) ∧ sv[16]? = some (BitVec.ofNat 64 p.toNat)) ∧
  (∀ st inc : Word, stateVector (.pcg32 ⟨st, inc⟩) = [st, inc]) ∧
  (∀ st inc : Word128, stateVector (.pcg64 ⟨st, inc⟩) =
    [st.extractLsb' 0 64, st.extractLsb' 64 64, inc.extractLsb' 0 64, inc.extractLsb' 64 64]) ∧
  (∀ m : Mt 32 624, (∀ j : Fin 624, (stateVector (.mt19937 m))[j.val]? = some ((0 : BitVec 32) ++ m.mt[j])) ∧
    (stateVector (.mt19937 m))[624]? = some (BitVec.ofNat 64 m.mti.val)) ∧
  (∀ m : Mt 64 312, (∀ j : Fin 312, (stateVector (.mt19937w64 m))[j.val]? = some m.mt[j]) ∧
    (stateVector (.mt19937w64 m))[312]? = some (BitVec.ofNat 64 m.mti.val)) ∧
  (∀ a b c d : Word, stateVector (.sfc64 ⟨a, b, c, d⟩) = [a, b, c, d] ∧ stateVector (.jsf64 ⟨a, b, c, d⟩) = [a, b, c, d] ∧
    stateVector (.mwc128 ⟨#v[a], b⟩) = [a, b] ∧ stateVector (.mwc192 ⟨#v[a, b], c⟩) = [a, b, c] ∧
    stateVector (.mwc256 ⟨#v[a, b, c], d⟩) = [a, b, c, d] ∧ stateVector (.gmwc128 ⟨a, b⟩) = [a, b])

/-- R178: STATE_READ answers the word of the state vector at index OPND[0], and changes no state; an index at or above
NSV is refused, as is an unseeded instance. -/
def Obligations.StateReadCompletes : Prop :=
  (∀ (s : State) (i : BitVec 4) (e : Engine) (j : Word), s.holds i e → s.opnd 0 = j →
    (∀ v, (stateVector e)[j.toNat]? = some v →
      exec (.stateRead i) s = .next { s with res := v, err := 0, running := none }) ∧
    (stateWords (engineVariant e) ≤ j.toNat → exec (.stateRead i) s = .next (s.refusedAs 6))) ∧
  (∀ (s : State) (i : BitVec 4), i.toNat < s.ninst → (s.inst i).valid = false →
    exec (.stateRead i) s = .next (s.refusedAs 4))

/-- R179, R65: STATE_WRITE of a legal value at an index below NSV replaces that word of the state vector and nothing
else of the instance: its variant and the other words stay, and a STATE_READ finds the value. -/
def Obligations.StateWriteCompletes : Prop :=
  ∀ (s : State) (i : BitVec 4) (e : Engine) (j v : Word), s.holds i e → s.opnd 0 = j → s.opnd 1 = v →
    j.toNat < stateWords (engineVariant e) → legalValue (engineVariant e) j.toNat v = true →
    ∃ e', exec (.stateWrite i) s = .next (s.stepped i e') ∧ engineVariant e' = engineVariant e ∧
      stateVector e' = (stateVector e).set j.toNat v ∧
      exec (.stateRead i) (s.stepped i e') = .next { s.stepped i e' with res := v }

/-- R180 and R182: the word QUERY answers for each variant, no engine state changing; an unseeded instance is refused. -/
def Obligations.QueryCompletes : Prop :=
  (∀ (s : State) (i : BitVec 4) (e : Engine), s.holds i e →
    ∃ r, exec (.query i) s = .next { s with res := r, err := 0, running := none } ∧
      (engineVariant e, r) ∈ ([(.splitmix64, 0x0000000000010001),
        (.xoroshiro128p, 0x0000000600020002), (.xoroshiro128pp, 0x0000000600020003),
        (.xoroshiro128ss, 0x0000000600020004), (.xoshiro256p, 0x0000000600040005),
        (.xoshiro256pp, 0x0000000600040006), (.xoshiro256ss, 0x0000000600040007),
        (.xoshiro512p, 0x0000000600080008), (.xoshiro512pp, 0x0000000600080009),
        (.xoshiro512ss, 0x000000060008000A), (.xoroshiro1024s, 0x000000060011000B),
        (.xoroshiro1024pp, 0x000000060011000C), (.xoroshiro1024ss, 0x000000060011000D),
        (.pcg32, 0x0000000F00020010), (.pcg64, 0x0000000E00040011),
        (.mt19937, 0x0000000102710018), (.mt19937w64, 0x0000000001390019),
        (.sfc64, 0x0000000000040020), (.jsf64, 0x0000000000040021),
        (.mwc128, 0x0000000600020028), (.mwc192, 0x0000000600030029),
        (.mwc256, 0x000000060004002A), (.gmwc128, 0x000000020002002B)] : List (Variant × Word))) ∧
  (∀ (s : State) (i : BitVec 4), i.toNat < s.ninst → (s.inst i).valid = false →
    exec (.query i) s = .next (s.refusedAs 4))

/-! ### The invariant -/

/-- The state after reset satisfies the invariant. -/
def Obligations.InvariantAtReset : Prop := State.reset.Inv

/-- Every step keeps the invariant: stored bytes in canonical form inside OPND and never half a register, ERR a code the
block writes, an error shown has set STICKY, NINST 1 to 16, BLOCK_BASE a multiple of 0x4000. -/
def Obligations.StepKeepsInvariant : Prop := ∀ s t : State, s.Inv → step s = .next t → t.Inv
end

