-- ==== Sys2Proof/Laws/State.lean ====
section
/-!
SUPPORT. What each named update of the state does to each field: one lemma per field and update, true by unfolding, so
that no proof opens a record update.
-/

namespace Sys2Proof.Machine

variable (s : State)

@[simp] theorem State.setRes_mem (v : Word) : (s.setRes v).mem = s.mem := rfl
@[simp] theorem State.setRes_res (v : Word) : (s.setRes v).res = v := rfl
@[simp] theorem State.setRes_err (v : Word) : (s.setRes v).err = s.err := rfl
@[simp] theorem State.setRes_sticky (v : Word) : (s.setRes v).sticky = s.sticky := rfl
@[simp] theorem State.setRes_insts (v : Word) : (s.setRes v).insts = s.insts := rfl
@[simp] theorem State.setRes_running (v : Word) : (s.setRes v).running = s.running := rfl
@[simp] theorem State.setRes_params (v : Word) : (s.setRes v).params = s.params := rfl
@[simp] theorem State.setRes_inbox (v : Word) : (s.setRes v).inbox = s.inbox := rfl
@[simp] theorem State.setRes_replies (v : Word) : (s.setRes v).replies = s.replies := rfl
@[simp] theorem State.setRes_draws (v : Word) : (s.setRes v).draws = s.draws := rfl
@[simp] theorem State.setRes_resets (v : Word) : (s.setRes v).resets = s.resets := rfl

@[simp] theorem State.setEngine_mem (i : BitVec 4) (e : Engine) : (s.setEngine i e).mem = s.mem := rfl
@[simp] theorem State.setEngine_res (i : BitVec 4) (e : Engine) : (s.setEngine i e).res = s.res := rfl
@[simp] theorem State.setEngine_err (i : BitVec 4) (e : Engine) : (s.setEngine i e).err = s.err := rfl
@[simp] theorem State.setEngine_sticky (i : BitVec 4) (e : Engine) : (s.setEngine i e).sticky = s.sticky := rfl
@[simp] theorem State.setEngine_insts (i : BitVec 4) (e : Engine) : (s.setEngine i e).insts = s.insts.set i.toNat { valid := true, engine := e } := rfl
@[simp] theorem State.setEngine_running (i : BitVec 4) (e : Engine) : (s.setEngine i e).running = s.running := rfl
@[simp] theorem State.setEngine_params (i : BitVec 4) (e : Engine) : (s.setEngine i e).params = s.params := rfl
@[simp] theorem State.setEngine_inbox (i : BitVec 4) (e : Engine) : (s.setEngine i e).inbox = s.inbox := rfl
@[simp] theorem State.setEngine_replies (i : BitVec 4) (e : Engine) : (s.setEngine i e).replies = s.replies := rfl
@[simp] theorem State.setEngine_draws (i : BitVec 4) (e : Engine) : (s.setEngine i e).draws = s.draws := rfl
@[simp] theorem State.setEngine_resets (i : BitVec 4) (e : Engine) : (s.setEngine i e).resets = s.resets := rfl

@[simp] theorem State.takeDraws_mem (n : Nat) : (s.takeDraws n).mem = s.mem := rfl
@[simp] theorem State.takeDraws_res (n : Nat) : (s.takeDraws n).res = s.res := rfl
@[simp] theorem State.takeDraws_err (n : Nat) : (s.takeDraws n).err = s.err := rfl
@[simp] theorem State.takeDraws_sticky (n : Nat) : (s.takeDraws n).sticky = s.sticky := rfl
@[simp] theorem State.takeDraws_insts (n : Nat) : (s.takeDraws n).insts = s.insts := rfl
@[simp] theorem State.takeDraws_running (n : Nat) : (s.takeDraws n).running = s.running := rfl
@[simp] theorem State.takeDraws_params (n : Nat) : (s.takeDraws n).params = s.params := rfl
@[simp] theorem State.takeDraws_inbox (n : Nat) : (s.takeDraws n).inbox = s.inbox := rfl
@[simp] theorem State.takeDraws_replies (n : Nat) : (s.takeDraws n).replies = s.replies := rfl
@[simp] theorem State.takeDraws_draws (n : Nat) : (s.takeDraws n).draws = s.draws + n := rfl
@[simp] theorem State.takeDraws_resets (n : Nat) : (s.takeDraws n).resets = s.resets := rfl

@[simp] theorem State.complete_mem : s.complete.mem = s.mem := rfl
@[simp] theorem State.complete_res : s.complete.res = s.res := rfl
@[simp] theorem State.complete_err : s.complete.err = 0 := rfl
@[simp] theorem State.complete_sticky : s.complete.sticky = s.sticky := rfl
@[simp] theorem State.complete_insts : s.complete.insts = s.insts := rfl
@[simp] theorem State.complete_running : s.complete.running = none := rfl
@[simp] theorem State.complete_params : s.complete.params = s.params := rfl
@[simp] theorem State.complete_inbox : s.complete.inbox = s.inbox := rfl
@[simp] theorem State.complete_replies : s.complete.replies = s.replies := rfl
@[simp] theorem State.complete_draws : s.complete.draws = s.draws := rfl
@[simp] theorem State.complete_resets : s.complete.resets = s.resets := rfl

@[simp] theorem State.refuse_mem (e : ErrorCode) : (s.refuse e).mem = s.mem := rfl
@[simp] theorem State.refuse_res (e : ErrorCode) : (s.refuse e).res = s.res := rfl
@[simp] theorem State.refuse_err (e : ErrorCode) : (s.refuse e).err = errorValue e := rfl
@[simp] theorem State.refuse_sticky (e : ErrorCode) : (s.refuse e).sticky = true := rfl
@[simp] theorem State.refuse_insts (e : ErrorCode) : (s.refuse e).insts = s.insts := rfl
@[simp] theorem State.refuse_running (e : ErrorCode) : (s.refuse e).running = none := rfl
@[simp] theorem State.refuse_params (e : ErrorCode) : (s.refuse e).params = s.params := rfl
@[simp] theorem State.refuse_inbox (e : ErrorCode) : (s.refuse e).inbox = s.inbox := rfl
@[simp] theorem State.refuse_replies (e : ErrorCode) : (s.refuse e).replies = s.replies := rfl
@[simp] theorem State.refuse_draws (e : ErrorCode) : (s.refuse e).draws = s.draws := rfl
@[simp] theorem State.refuse_resets (e : ErrorCode) : (s.refuse e).resets = s.resets := rfl

@[simp] theorem State.reply_mem (v : Word) : (s.reply v).mem = s.mem := rfl
@[simp] theorem State.reply_res (v : Word) : (s.reply v).res = s.res := rfl
@[simp] theorem State.reply_err (v : Word) : (s.reply v).err = s.err := rfl
@[simp] theorem State.reply_sticky (v : Word) : (s.reply v).sticky = s.sticky := rfl
@[simp] theorem State.reply_insts (v : Word) : (s.reply v).insts = s.insts := rfl
@[simp] theorem State.reply_running (v : Word) : (s.reply v).running = s.running := rfl
@[simp] theorem State.reply_params (v : Word) : (s.reply v).params = s.params := rfl
@[simp] theorem State.reply_inbox (v : Word) : (s.reply v).inbox = s.inbox := rfl
@[simp] theorem State.reply_replies (v : Word) : (s.reply v).replies = s.replies ++ [v] := rfl
@[simp] theorem State.reply_draws (v : Word) : (s.reply v).draws = s.draws := rfl
@[simp] theorem State.reply_resets (v : Word) : (s.reply v).resets = s.resets := rfl

@[simp] theorem State.writeOpnd_mem (k : Nat) (v : Word) : (s.writeOpnd k v).mem = Memory.write64 s.mem (opndOffset k) v := rfl
@[simp] theorem State.writeOpnd_res (k : Nat) (v : Word) : (s.writeOpnd k v).res = s.res := rfl
@[simp] theorem State.writeOpnd_err (k : Nat) (v : Word) : (s.writeOpnd k v).err = s.err := rfl
@[simp] theorem State.writeOpnd_sticky (k : Nat) (v : Word) : (s.writeOpnd k v).sticky = s.sticky := rfl
@[simp] theorem State.writeOpnd_insts (k : Nat) (v : Word) : (s.writeOpnd k v).insts = s.insts := rfl
@[simp] theorem State.writeOpnd_running (k : Nat) (v : Word) : (s.writeOpnd k v).running = s.running := rfl
@[simp] theorem State.writeOpnd_params (k : Nat) (v : Word) : (s.writeOpnd k v).params = s.params := rfl
@[simp] theorem State.writeOpnd_inbox (k : Nat) (v : Word) : (s.writeOpnd k v).inbox = s.inbox := rfl
@[simp] theorem State.writeOpnd_replies (k : Nat) (v : Word) : (s.writeOpnd k v).replies = s.replies := rfl
@[simp] theorem State.writeOpnd_draws (k : Nat) (v : Word) : (s.writeOpnd k v).draws = s.draws := rfl
@[simp] theorem State.writeOpnd_resets (k : Nat) (v : Word) : (s.writeOpnd k v).resets = s.resets := rfl

@[simp] theorem State.resetBlock_mem : s.resetBlock.mem = [] := rfl
@[simp] theorem State.resetBlock_res : s.resetBlock.res = 0 := rfl
@[simp] theorem State.resetBlock_err : s.resetBlock.err = 0 := rfl
@[simp] theorem State.resetBlock_sticky : s.resetBlock.sticky = false := rfl
@[simp] theorem State.resetBlock_insts : s.resetBlock.insts = List.replicate s.ninst Inst.unseeded := rfl
@[simp] theorem State.resetBlock_running : s.resetBlock.running = none := rfl
@[simp] theorem State.resetBlock_params : s.resetBlock.params = s.params := rfl
@[simp] theorem State.resetBlock_inbox : s.resetBlock.inbox = s.inbox := rfl
@[simp] theorem State.resetBlock_replies : s.resetBlock.replies = s.replies := rfl
@[simp] theorem State.resetBlock_draws : s.resetBlock.draws = s.draws := rfl
@[simp] theorem State.resetBlock_resets : s.resetBlock.resets = s.resets + 1 := rfl

@[simp] theorem State.withCommand_mem (w : Word) : (s.withCommand w).mem = s.mem := rfl
@[simp] theorem State.withCommand_res (w : Word) : (s.withCommand w).res = s.res := rfl
@[simp] theorem State.withCommand_err (w : Word) : (s.withCommand w).err = s.err := rfl
@[simp] theorem State.withCommand_sticky (w : Word) : (s.withCommand w).sticky = s.sticky := rfl
@[simp] theorem State.withCommand_insts (w : Word) : (s.withCommand w).insts = s.insts := rfl
@[simp] theorem State.withCommand_running (w : Word) : (s.withCommand w).running = some w := rfl
@[simp] theorem State.withCommand_params (w : Word) : (s.withCommand w).params = s.params := rfl
@[simp] theorem State.withCommand_inbox (w : Word) : (s.withCommand w).inbox = s.inbox.map fun e => { e with early := false } := rfl
@[simp] theorem State.withCommand_replies (w : Word) : (s.withCommand w).replies = s.replies := rfl
@[simp] theorem State.withCommand_draws (w : Word) : (s.withCommand w).draws = s.draws := rfl
@[simp] theorem State.withCommand_resets (w : Word) : (s.withCommand w).resets = s.resets := rfl

/-! ### What the accessors see -/

@[simp] theorem State.setRes_opnd (v : Word) (x : Nat) : (s.setRes v).opnd x = s.opnd x := rfl
@[simp] theorem State.setRes_inst (v : Word) (x : BitVec 4) : (s.setRes v).inst x = s.inst x := rfl
@[simp] theorem State.setRes_ninst (v : Word) : (s.setRes v).ninst = s.ninst := rfl
@[simp] theorem State.setRes_busy (v : Word) : (s.setRes v).busy = s.busy := rfl
@[simp] theorem State.setEngine_opnd (i : BitVec 4) (e : Engine) (x : Nat) : (s.setEngine i e).opnd x = s.opnd x := rfl
@[simp] theorem State.setEngine_busy (i : BitVec 4) (e : Engine) : (s.setEngine i e).busy = s.busy := rfl
@[simp] theorem State.takeDraws_opnd (n : Nat) (x : Nat) : (s.takeDraws n).opnd x = s.opnd x := rfl
@[simp] theorem State.takeDraws_inst (n : Nat) (x : BitVec 4) : (s.takeDraws n).inst x = s.inst x := rfl
@[simp] theorem State.takeDraws_ninst (n : Nat) : (s.takeDraws n).ninst = s.ninst := rfl
@[simp] theorem State.takeDraws_busy (n : Nat) : (s.takeDraws n).busy = s.busy := rfl
@[simp] theorem State.complete_opnd (x : Nat) : s.complete.opnd x = s.opnd x := rfl
@[simp] theorem State.complete_inst (x : BitVec 4) : s.complete.inst x = s.inst x := rfl
@[simp] theorem State.complete_ninst : s.complete.ninst = s.ninst := rfl
@[simp] theorem State.refuse_opnd (e : ErrorCode) (x : Nat) : (s.refuse e).opnd x = s.opnd x := rfl
@[simp] theorem State.refuse_inst (e : ErrorCode) (x : BitVec 4) : (s.refuse e).inst x = s.inst x := rfl
@[simp] theorem State.refuse_ninst (e : ErrorCode) : (s.refuse e).ninst = s.ninst := rfl
@[simp] theorem State.reply_opnd (v : Word) (x : Nat) : (s.reply v).opnd x = s.opnd x := rfl
@[simp] theorem State.reply_inst (v : Word) (x : BitVec 4) : (s.reply v).inst x = s.inst x := rfl
@[simp] theorem State.reply_ninst (v : Word) : (s.reply v).ninst = s.ninst := rfl
@[simp] theorem State.reply_busy (v : Word) : (s.reply v).busy = s.busy := rfl
@[simp] theorem State.writeOpnd_inst (k : Nat) (v : Word) (x : BitVec 4) : (s.writeOpnd k v).inst x = s.inst x := rfl
@[simp] theorem State.writeOpnd_ninst (k : Nat) (v : Word) : (s.writeOpnd k v).ninst = s.ninst := rfl
@[simp] theorem State.writeOpnd_busy (k : Nat) (v : Word) : (s.writeOpnd k v).busy = s.busy := rfl
@[simp] theorem State.withCommand_opnd (w : Word) (x : Nat) : (s.withCommand w).opnd x = s.opnd x := rfl
@[simp] theorem State.withCommand_inst (w : Word) (x : BitVec 4) : (s.withCommand w).inst x = s.inst x := rfl
@[simp] theorem State.withCommand_ninst (w : Word) : (s.withCommand w).ninst = s.ninst := rfl

@[simp] theorem State.complete_busy : s.complete.busy = false := rfl
@[simp] theorem State.refuse_busy (e : ErrorCode) : (s.refuse e).busy = false := rfl
@[simp] theorem State.withCommand_busy (w : Word) : (s.withCommand w).busy = true := rfl

@[simp] theorem State.setEngine_ninst (i : BitVec 4) (e : Engine) : (s.setEngine i e).ninst = s.ninst := by
  simp [State.ninst]

@[simp] theorem State.resetBlock_ninst : s.resetBlock.ninst = s.ninst := by simp [State.ninst]

/-- The instance written holds the new engine and is valid. -/
theorem State.setEngine_inst_same {s : State} {i : BitVec 4} (h : i.toNat < s.ninst) (e : Engine) :
    (s.setEngine i e).inst i = { valid := true, engine := e } := by
  simp only [State.ninst] at h
  simp [State.inst, List.getD_eq_getElem?_getD, h]

/-- Writing an instance leaves every other instance as it was (R41). -/
theorem State.setEngine_inst_other {s : State} {i k : BitVec 4} (h : k ≠ i) (e : Engine) :
    (s.setEngine i e).inst k = s.inst k := by
  have hne : i.toNat ≠ k.toNat := fun he => h (BitVec.eq_of_toNat_eq he.symm)
  simp [State.inst, List.getD_eq_getElem?_getD, List.getElem?_set_ne hne]

end Sys2Proof.Machine
end

