-- ==== Sys2Proof/Laws/Commands.lean ====
section
/-!
SUPPORT. What each shared operation of the commands can do, said once, and what each command's rule leaves: the lemmas
the proofs cite in place of opening a meaning.
-/

namespace Sys2Proof.Machine

/-! ### The monad of a command's rule -/

@[simp] theorem bind_ok {α β : Type} (a : α) (f : α → Except ErrorCode β) : (Except.ok a >>= f) = f a := rfl

@[simp] theorem bind_error {α β : Type} (x : ErrorCode) (f : α → Except ErrorCode β) : (Except.error x >>= f) = .error x := rfl

@[simp] theorem pure_eq_ok {α : Type} (a : α) : (pure a : Except ErrorCode α) = .ok a := rfl

/-- A rule that reaches its end has passed its first part. -/
theorem bind_eq_ok {α β : Type} {x : Except ErrorCode α} {f : α → Except ErrorCode β} {b : β} (h : (x >>= f) = .ok b) :
    ∃ a, x = .ok a ∧ f a = .ok b := by
  cases x with
  | ok a => exact ⟨a, rfl, h⟩
  | error e => cases h

/-- A rule that stops has stopped in its first part, or has passed it. -/
theorem bind_eq_error {α β : Type} {x : Except ErrorCode α} {f : α → Except ErrorCode β} {p : ErrorCode}
    (h : (x >>= f) = .error p) : x = .error p ∨ ∃ a, x = .ok a ∧ f a = .error p := by
  cases x with
  | ok a => exact .inr ⟨a, rfl, h⟩
  | error e =>
    cases h
    exact .inl rfl

/-! ### Checks -/

@[simp] theorem check_true (e : ErrorCode) : check true e = .ok () := rfl

@[simp] theorem check_false (e : ErrorCode) : check false e = .error e := rfl

theorem check_ok {c : Bool} {e : ErrorCode} {u : Unit} : check c e = .ok u ↔ c = true := by
  cases c <;> simp

theorem check_error {c : Bool} {e : ErrorCode} {p : ErrorCode} : check c e = .error p ↔ c = false ∧ p = e := by
  cases c <;> simp [@eq_comm _ p]

@[simp] theorem raise_eq {α : Type} (e : ErrorCode) : (raise e : Except ErrorCode α) = .error e := rfl

theorem checkInst_ok {s : State} {i : BitVec 4} {u : Unit} : checkInst s i = .ok u ↔ i.toNat < s.ninst := by
  simp [checkInst, check_ok]

theorem checkInst_pass {s : State} {i : BitVec 4} (h : i.toNat < s.ninst) : checkInst s i = .ok () := checkInst_ok.2 h

theorem checkInst_error {s : State} {i : BitVec 4} {p : ErrorCode} :
    checkInst s i = .error p ↔ s.ninst ≤ i.toNat ∧ p = .illegalCommand := by
  simp [checkInst, check_error]

theorem seededEngine_ok {s : State} {i : BitVec 4} {e : Engine} :
    seededEngine s i = .ok e ↔ (s.inst i).valid = true ∧ (s.inst i).engine = e := by
  unfold seededEngine
  cases (s.inst i).valid <;> simp

theorem seededEngine_error {s : State} {i : BitVec 4} {p : ErrorCode} :
    seededEngine s i = .error p ↔ (s.inst i).valid = false ∧ p = .unseeded := by
  unfold seededEngine
  cases (s.inst i).valid <;> simp [@eq_comm _ p]

/-- Checks 5 and 7a pass exactly on a seeded instance of the block. -/
theorem engineOf_ok {s : State} {i : BitVec 4} {e : Engine} :
    engineOf s i = .ok e ↔ i.toNat < s.ninst ∧ (s.inst i).valid = true ∧ (s.inst i).engine = e := by
  constructor
  · intro h
    obtain ⟨u, hu, h⟩ := bind_eq_ok h
    exact ⟨checkInst_ok.1 hu, seededEngine_ok.1 h⟩
  · rintro ⟨h, hv⟩
    simp [engineOf, checkInst_pass h, seededEngine_ok.2 hv]

/-- How checks 5 and 7a fail. -/
theorem engineOf_error {s : State} {i : BitVec 4} {p : ErrorCode} :
    engineOf s i = .error p ↔
      (s.ninst ≤ i.toNat ∧ p = .illegalCommand) ∨
        (i.toNat < s.ninst ∧ (s.inst i).valid = false ∧ p = .unseeded) := by
  constructor
  · intro h
    rcases bind_eq_error h with h | ⟨u, hu, h⟩
    · exact .inl (checkInst_error.1 h)
    · exact .inr ⟨checkInst_ok.1 hu, seededEngine_error.1 h⟩
  · rintro (h | ⟨h, hv⟩)
    · simp [engineOf, checkInst_error.2 h]
    · simp [engineOf, checkInst_pass h, seededEngine_error.2 hv]

theorem seedVariant_ok {s : State} {var : BitVec 6} {i : BitVec 4} {v : Variant} :
    seedVariant s var i = .ok v ↔ i.toNat < s.ninst ∧ variantOfCode? var = some v := by
  constructor
  · intro h
    obtain ⟨u, hu, h⟩ := bind_eq_ok h
    refine ⟨checkInst_ok.1 hu, ?_⟩
    cases hv : variantOfCode? var <;> simp_all
  · rintro ⟨h, hv⟩
    simp [seedVariant, checkInst_pass h, hv]

theorem seedVariant_error {s : State} {var : BitVec 6} {i : BitVec 4} {p : ErrorCode} :
    seedVariant s var i = .error p ↔
      (s.ninst ≤ i.toNat ∨ variantOfCode? var = none) ∧ p = .illegalCommand := by
  by_cases h : i.toNat < s.ninst
  · have h' := Nat.not_le_of_lt h
    cases hv : variantOfCode? var <;> simp [seedVariant, checkInst_pass h, hv, h', @eq_comm _ p]
  · have h' := Nat.le_of_not_lt h
    simp [seedVariant, checkInst_error.2 ⟨h', rfl⟩, h', @eq_comm _ p]

/-! ### Operands -/

@[simp] theorem readOpnds_length (s : State) (n : Nat) : (readOpnds s n).length = n := by simp [readOpnds]

/-- The operands read are OPND[0..n-1] (R135). -/
theorem readOpnds_getElem? (s : State) (n k : Nat) : (readOpnds s n)[k]? = if k < n then some (s.opnd k) else none := by
  simp only [readOpnds, List.getElem?_map]
  split <;> simp_all

/-- The operands a statement names are the ones the command reads. -/
theorem readOpnds_eq {s : State} {us : List Word} (h : s.operands us) : readOpnds s us.length = us := by
  refine List.ext_getElem? fun k => ?_
  rw [readOpnds_getElem?]
  split
  · exact (h k ‹_›).symm
  · simp_all

/-! ### How a command ends -/

@[simp] theorem finish_ok (s t : State) : finish s (.ok t) = .next t.complete := rfl

@[simp] theorem finish_error (s : State) (e : ErrorCode) : finish s (.error e) = .next (s.refuse e) := rfl

/-- A command that ends has completed its rule, or was refused. -/
theorem finish_eq_next {s t : State} {b : Body} (h : finish s b = .next t) :
    (∃ u, b = .ok u ∧ t = u.complete) ∨ (∃ e, b = .error e ∧ t = s.refuse e) := by
  rcases b with e | u
  · exact .inr ⟨e, rfl, by simpa using h.symm⟩
  · exact .inl ⟨u, rfl, by simpa using h.symm⟩

/-- No command stops. -/
theorem finish_ne_fault (s : State) (b : Body) (f : Fault) : finish s b ≠ .fault f := by
  rcases b with e | u <;> simp

/-- A command is never without a meaning. -/
theorem finish_ne_refused (s : State) (b : Body) (r : Refusal) : finish s b ≠ .refused r := by
  rcases b with e | u <;> simp

/-! ### What a command's rule leaves -/

/-- The effects a command's rule has on the state before STATUS is written: none, a new engine in the target instance,
a new RES, or both. -/
inductive Effect (i : Instr) (s : State) : State → Prop
  | nothing : Effect i s s
  | engine {j : BitVec 4} (e : Engine) : targetOf i = some j → j.toNat < s.ninst → Effect i s (s.setEngine j e)
  | result (v : Word) : Effect i s (s.setRes v)
  | both {j : BitVec 4} (e : Engine) (v : Word) : targetOf i = some j → j.toNat < s.ninst →
      Effect i s ((s.setEngine j e).setRes v)

theorem seedBody_ok {s t : State} {var : BitVec 6} {zok lok : Bool} {cnt : BitVec 10} {inst : BitVec 4}
    (h : seedBody s var zok lok cnt inst = .ok t) : inst.toNat < s.ninst ∧ ∃ e, t = s.setEngine inst e := by
  obtain ⟨v, hv, h⟩ := bind_eq_ok h
  obtain ⟨e, -, h⟩ := bind_eq_ok h
  cases h
  exact ⟨(seedVariant_ok.1 hv).1, e, rfl⟩

theorem seedBytesBody_ok {s t : State} {var : BitVec 6} {zok lok : Bool} {cnt : BitVec 10} {inst : BitVec 4}
    (h : seedBytesBody s var zok lok cnt inst = .ok t) : inst.toNat < s.ninst ∧ ∃ e, t = s.setEngine inst e := by
  obtain ⟨v, hv, h⟩ := bind_eq_ok h
  obtain ⟨u, -, h⟩ := bind_eq_ok h
  obtain ⟨e, -, h⟩ := bind_eq_ok h
  cases h
  exact ⟨(seedVariant_ok.1 hv).1, e, rfl⟩

theorem seedKeyBody_ok {s t : State} {var : BitVec 6} {zok : Bool} {cnt : BitVec 10} {inst : BitVec 4}
    (h : seedKeyBody s var zok cnt inst = .ok t) : inst.toNat < s.ninst ∧ ∃ e, t = s.setEngine inst e := by
  obtain ⟨v, hv, h⟩ := bind_eq_ok h
  obtain ⟨u, -, h⟩ := bind_eq_ok h
  obtain ⟨u', -, h⟩ := bind_eq_ok h
  obtain ⟨u'', -, h⟩ := bind_eq_ok h
  cases h
  exact ⟨(seedVariant_ok.1 hv).1, _, rfl⟩

theorem nextBody_ok {s t : State} {inst : BitVec 4} (h : nextBody s inst = .ok t) :
    ∃ e, engineOf s inst = .ok e ∧
      t = (s.setEngine inst (nextRaw s.params.raw64Pack e).2).setRes (nextRaw s.params.raw64Pack e).1 := by
  obtain ⟨e, he, h⟩ := bind_eq_ok h
  cases h
  exact ⟨e, he, rfl⟩

theorem next32Body_ok {s t : State} {inst : BitVec 4} (h : next32Body s inst = .ok t) :
    ∃ e, engineOf s inst = .ok e ∧ native32 (engineVariant e) = true ∧
      t = (s.setEngine inst (nextNative e).2).setRes (nextNative e).1 := by
  obtain ⟨e, he, h⟩ := bind_eq_ok h
  obtain ⟨u, hu, h⟩ := bind_eq_ok h
  cases h
  exact ⟨e, he, check_ok.1 hu, rfl⟩

theorem orUnsupported_ok {o : Option Engine} {e : Engine} : orUnsupported o = .ok e ↔ o = some e := by
  cases o <;> simp [orUnsupported]

theorem orUnsupported_error {o : Option Engine} {p : ErrorCode} :
    orUnsupported o = .error p ↔ o = none ∧ p = .unsupportedOperation := by
  cases o <;> simp [orUnsupported, @eq_comm _ p]

theorem jumpBody_ok {s t : State} {inst : BitVec 4} (h : jumpBody s inst = .ok t) :
    ∃ e e', engineOf s inst = .ok e ∧ jumpEngine e = some e' ∧ t = s.setEngine inst e' := by
  obtain ⟨e, he, h⟩ := bind_eq_ok h
  obtain ⟨e', he', h⟩ := bind_eq_ok h
  cases h
  exact ⟨e, e', he, orUnsupported_ok.1 he', rfl⟩

theorem longJumpBody_ok {s t : State} {inst : BitVec 4} (h : longJumpBody s inst = .ok t) :
    ∃ e e', engineOf s inst = .ok e ∧ longJumpEngine e = some e' ∧ t = s.setEngine inst e' := by
  obtain ⟨e, he, h⟩ := bind_eq_ok h
  obtain ⟨e', he', h⟩ := bind_eq_ok h
  cases h
  exact ⟨e, e', he, orUnsupported_ok.1 he', rfl⟩

theorem advanceBody_ok {s t : State} {inst : BitVec 4} (h : advanceBody s inst = .ok t) :
    ∃ e e', engineOf s inst = .ok e ∧ advanceEngine s e = .ok e' ∧ t = s.setEngine inst e' := by
  obtain ⟨e, he, h⟩ := bind_eq_ok h
  obtain ⟨e', he', h⟩ := bind_eq_ok h
  cases h
  exact ⟨e, e', he, he', rfl⟩

theorem cloneBody_ok {s t : State} {inst dst : BitVec 4} (h : cloneBody s inst dst = .ok t) :
    dst.toNat < s.ninst ∧ ∃ e, engineOf s inst = .ok e ∧ t = if dst = inst then s else s.setEngine dst e := by
  obtain ⟨u, hu, h⟩ := bind_eq_ok h
  obtain ⟨u', hu', h⟩ := bind_eq_ok h
  obtain ⟨e, he, h⟩ := bind_eq_ok h
  cases h
  exact ⟨checkInst_ok.1 hu', e, engineOf_ok.2 ⟨checkInst_ok.1 hu, seededEngine_ok.1 he⟩, rfl⟩

theorem stateReadBody_ok {s t : State} {inst : BitVec 4} (h : stateReadBody s inst = .ok t) :
    ∃ e v, engineOf s inst = .ok e ∧ (stateVector e)[(s.opnd 0).toNat]? = some v ∧ t = s.setRes v := by
  obtain ⟨e, he, h⟩ := bind_eq_ok h
  cases hv : (stateVector e)[(s.opnd 0).toNat]? with
  | none => simp [hv] at h
  | some v =>
    simp only [hv, pure_eq_ok, Except.ok.injEq] at h
    exact ⟨e, v, he, hv, h.symm⟩

theorem stateWriteBody_ok {s t : State} {inst : BitVec 4} (h : stateWriteBody s inst = .ok t) :
    ∃ e e', engineOf s inst = .ok e ∧ writeStateVector e (s.opnd 0).toNat (s.opnd 1) = some e' ∧
      t = s.setEngine inst e' := by
  obtain ⟨e, he, h⟩ := bind_eq_ok h
  cases hw : writeStateVector e (s.opnd 0).toNat (s.opnd 1) with
  | none => simp [hw] at h
  | some e' =>
    simp only [hw, pure_eq_ok, Except.ok.injEq] at h
    exact ⟨e, e', he, hw, h.symm⟩

theorem queryBody_ok {s t : State} {inst : BitVec 4} (h : queryBody s inst = .ok t) :
    ∃ e, engineOf s inst = .ok e ∧ t = s.setRes (queryWord (engineVariant e)) := by
  obtain ⟨e, he, h⟩ := bind_eq_ok h
  cases h
  exact ⟨e, he, rfl⟩

/-- Everything a command that ends can do: it is refused, or its effects stand and STATUS is written. `n` words have been
taken from the entropy port, by SEED_ENTROPY alone. -/
theorem exec_cases {i : Instr} {s t : State} (h : exec i s = .next t) :
    ∃ n, (∃ e, t = (s.takeDraws n).refuse e) ∨ (∃ u, Effect i (s.takeDraws n) u ∧ t = u.complete) := by
  have lift : ∀ {b : Body}, finish s b = .next t → (∀ u, b = .ok u → Effect i s u) →
      ∃ n, (∃ e, t = (s.takeDraws n).refuse e) ∨ (∃ u, Effect i (s.takeDraws n) u ∧ t = u.complete) := by
    intro b hb hu
    refine ⟨0, ?_⟩
    rcases finish_eq_next hb with ⟨u, hbu, rfl⟩ | ⟨e, -, rfl⟩
    · exact .inr ⟨u, hu u hbu, rfl⟩
    · exact .inl ⟨e, rfl⟩
  cases i with
  | nop =>
    refine lift (b := .ok s) h fun u hu => ?_
    cases hu
    exact .nothing
  | seed var zok lok cnt inst =>
    refine lift h fun u hu => ?_
    obtain ⟨hr, e, rfl⟩ := seedBody_ok hu
    exact .engine e rfl hr
  | seedBytes var zok lok cnt inst =>
    refine lift h fun u hu => ?_
    obtain ⟨hr, e, rfl⟩ := seedBytesBody_ok hu
    exact .engine e rfl hr
  | seedKey var zok cnt inst =>
    refine lift h fun u hu => ?_
    obtain ⟨hr, e, rfl⟩ := seedKeyBody_ok hu
    exact .engine e rfl hr
  | seedEntropy var inst =>
    simp only [exec, execSeedEntropy] at h
    cases hv : seedVariant s var inst with
    | error p =>
      rw [hv] at h
      exact lift h fun u hu => by cases hu
    | ok v =>
      rw [hv] at h
      refine ⟨seedCount v, ?_⟩
      rcases finish_eq_next h with ⟨u, hu, rfl⟩ | ⟨e, -, rfl⟩
      · cases hg : seedCommon v ((s.entropyWords (seedCount v)).map (truncElement (elementWidth v))) false false with
        | error p => simp [hg, Except.map] at hu
        | ok g =>
          simp only [hg, Except.map, Except.ok.injEq] at hu
          exact .inr ⟨u, hu ▸ .engine g rfl (seedVariant_ok.1 hv).1, rfl⟩
      · exact .inl ⟨e, rfl⟩
  | next inst =>
    refine lift h fun u hu => ?_
    obtain ⟨e, he, rfl⟩ := nextBody_ok hu
    exact .both _ _ rfl (engineOf_ok.1 he).1
  | next32 inst =>
    refine lift h fun u hu => ?_
    obtain ⟨e, he, -, rfl⟩ := next32Body_ok hu
    exact .both _ _ rfl (engineOf_ok.1 he).1
  | jump inst =>
    refine lift h fun u hu => ?_
    obtain ⟨e, e', he, -, rfl⟩ := jumpBody_ok hu
    exact .engine _ rfl (engineOf_ok.1 he).1
  | longJump inst =>
    refine lift h fun u hu => ?_
    obtain ⟨e, e', he, -, rfl⟩ := longJumpBody_ok hu
    exact .engine _ rfl (engineOf_ok.1 he).1
  | advance inst =>
    refine lift h fun u hu => ?_
    obtain ⟨e, e', he, -, rfl⟩ := advanceBody_ok hu
    exact .engine _ rfl (engineOf_ok.1 he).1
  | clone inst dst =>
    refine lift h fun u hu => ?_
    obtain ⟨hr, e, he, rfl⟩ := cloneBody_ok hu
    split
    · exact .nothing
    · exact .engine _ rfl hr
  | stateRead inst =>
    refine lift h fun u hu => ?_
    obtain ⟨e, v, -, -, rfl⟩ := stateReadBody_ok hu
    exact .result v
  | stateWrite inst =>
    refine lift h fun u hu => ?_
    obtain ⟨e, e', he, -, rfl⟩ := stateWriteBody_ok hu
    exact .engine _ rfl (engineOf_ok.1 he).1
  | query inst =>
    refine lift h fun u hu => ?_
    obtain ⟨e, -, rfl⟩ := queryBody_ok hu
    exact .result _

end Sys2Proof.Machine
end

