-- ==== Sys2Proof/Laws/Encoding.lean ====
section
/-!
SUPPORT. The fields of a command word that is put together from its fields (30_encoding.md R120, R121), and the variant
codes (R131).
-/

namespace Sys2Proof

section Fields

variable (op var : BitVec 6) (zok lok : Bool) (cnt : BitVec 10) (inst dst : BitVec 4)

@[simp] theorem fieldOp_commandWord : fieldOp (commandWord op var zok lok cnt inst dst) = op := by
  ext i hi
  simp only [fieldOp, commandWord, BitVec.getElem_extractLsb', BitVec.getLsbD_append]
  rw [if_pos (by omega)]
  simp [BitVec.getElem_eq_testBit_toNat, BitVec.getLsbD]

@[simp] theorem fieldVar_commandWord : fieldVar (commandWord op var zok lok cnt inst dst) = var := by
  ext i hi
  simp only [fieldVar, commandWord, BitVec.getElem_extractLsb', BitVec.getLsbD_append]
  rw [if_neg (by omega), if_pos (by omega)]
  simp [BitVec.getElem_eq_testBit_toNat, BitVec.getLsbD]

@[simp] theorem fieldZok_commandWord : fieldZok (commandWord op var zok lok cnt inst dst) = zok := by
  simp only [fieldZok, commandWord, BitVec.getLsbD_append]
  rw [if_neg (by omega), if_neg (by omega), if_pos (by omega)]
  simp

@[simp] theorem fieldLok_commandWord : fieldLok (commandWord op var zok lok cnt inst dst) = lok := by
  simp only [fieldLok, commandWord, BitVec.getLsbD_append]
  rw [if_neg (by omega), if_neg (by omega), if_neg (by omega), if_pos (by omega)]
  simp

@[simp] theorem fieldCnt_commandWord : fieldCnt (commandWord op var zok lok cnt inst dst) = cnt := by
  ext i hi
  simp only [fieldCnt, commandWord, BitVec.getElem_extractLsb', BitVec.getLsbD_append]
  rw [if_neg (by omega), if_neg (by omega), if_neg (by omega), if_neg (by omega), if_pos (by omega),
    show 14 + i - 6 - 6 - 1 - 1 = i by omega, BitVec.getLsbD_eq_getElem hi]

@[simp] theorem fieldInst_commandWord : fieldInst (commandWord op var zok lok cnt inst dst) = inst := by
  ext i hi
  simp only [fieldInst, commandWord, BitVec.getElem_extractLsb', BitVec.getLsbD_append]
  rw [if_neg (by omega), if_neg (by omega), if_neg (by omega), if_neg (by omega), if_neg (by omega), if_pos (by omega),
    show 24 + i - 6 - 6 - 1 - 1 - 10 = i by omega, BitVec.getLsbD_eq_getElem hi]

@[simp] theorem fieldDst_commandWord : fieldDst (commandWord op var zok lok cnt inst dst) = dst := by
  ext i hi
  simp only [fieldDst, commandWord, BitVec.getElem_extractLsb', BitVec.getLsbD_append]
  rw [if_neg (by omega), if_neg (by omega), if_neg (by omega), if_neg (by omega), if_neg (by omega), if_neg (by omega),
    if_pos (by omega), show 28 + i - 6 - 6 - 1 - 1 - 10 - 4 = i by omega, BitVec.getLsbD_eq_getElem hi]

@[simp] theorem fieldReserved_commandWord : fieldReserved (commandWord op var zok lok cnt inst dst) = 0 := by
  ext i hi
  simp only [fieldReserved, commandWord, BitVec.getElem_extractLsb', BitVec.getLsbD_append]
  rw [if_neg (by omega), if_neg (by omega), if_neg (by omega), if_neg (by omega), if_neg (by omega), if_neg (by omega),
    if_neg (by omega)]
  simp

end Fields

/-- A variant's code names that variant (R131). -/
theorem variantOfCode_variantCode (v : Variant) : variantOfCode? (variantCode v) = some v := by
  cases v <;> decide

/-- A code that names a variant is that variant's code (R131). -/
theorem variantCode_of_variantOfCode {c : BitVec 6} {v : Variant} (h : variantOfCode? c = some v) :
    variantCode v = c := by
  have := List.find?_some h
  simpa using this

end Sys2Proof
end

