-- ==== Sys2Proof/Laws/Memory.lean ====
section
/-!
SUPPORT. The memory behind the register window: reading after writing, the canonical form, and the 64-bit registers built
from bytes.
-/

namespace Sys2Proof.Machine

theorem Memory.readByte_writeByte (m : Memory) (a : Nat) (b : Byte) (x : Nat) :
    Memory.readByte (Memory.writeByte m a b) x = if x = a then some b else Memory.readByte m x := by
  induction m with
  | nil => simp [Memory.writeByte, Memory.readByte]
  | cons c m ih =>
    obtain ⟨k, c⟩ := c
    simp only [Memory.writeByte]
    split
    · simp [Memory.readByte]
    · split
      · rename_i hk
        subst hk
        simp only [Memory.readByte]
        split <;> rfl
      · rename_i hk
        simp only [Memory.readByte, ih]
        by_cases hx : x = k
        · have : x ≠ a := fun h => hk (h.symm.trans hx)
          simp [hx]
          intro h
          exact absurd h.symm hk
        · simp [hx]

@[simp] theorem Memory.readByte_writeByte_same (m : Memory) (a : Nat) (b : Byte) :
    Memory.readByte (Memory.writeByte m a b) a = some b := by simp [Memory.readByte_writeByte]

theorem Memory.readByte_writeByte_other {a x : Nat} (h : x ≠ a) (m : Memory) (b : Byte) :
    Memory.readByte (Memory.writeByte m a b) x = Memory.readByte m x := by simp [Memory.readByte_writeByte, h]

/-- A rising list rises from any lower bound too. -/
theorem Memory.risingFrom_mono {lo lo' : Nat} (h : lo' ≤ lo) {m : Memory} (hm : Memory.risingFrom lo m = true) :
    Memory.risingFrom lo' m = true := by
  cases m with
  | nil => rfl
  | cons c m =>
    simp only [Memory.risingFrom, Bool.and_eq_true, decide_eq_true_eq] at hm ⊢
    exact ⟨h.trans hm.1, hm.2⟩

theorem Memory.risingFrom_writeByte {lo a : Nat} {m : Memory} (hm : Memory.risingFrom lo m = true) (ha : lo ≤ a)
    (b : Byte) : Memory.risingFrom lo (Memory.writeByte m a b) = true := by
  induction m generalizing lo with
  | nil => simp [Memory.writeByte, Memory.risingFrom, ha]
  | cons c m ih =>
    obtain ⟨k, c⟩ := c
    simp only [Memory.risingFrom, Bool.and_eq_true, decide_eq_true_eq] at hm
    simp only [Memory.writeByte]
    split
    · simp only [Memory.risingFrom, Bool.and_eq_true, decide_eq_true_eq]
      exact ⟨ha, by omega, hm.2⟩
    · split
      · rename_i h
        subst h
        simp only [Memory.risingFrom, Bool.and_eq_true, decide_eq_true_eq]
        exact ⟨ha, hm.2⟩
      · simp only [Memory.risingFrom, Bool.and_eq_true, decide_eq_true_eq]
        exact ⟨hm.1, ih hm.2 (by omega)⟩

/-- Writing a byte keeps the canonical form. -/
theorem Memory.wf_writeByte {m : Memory} (hm : Memory.wf m = true) (a : Nat) (b : Byte) :
    Memory.wf (Memory.writeByte m a b) = true := Memory.risingFrom_writeByte hm (Nat.zero_le a) b

/-- Writing a register keeps the canonical form. -/
theorem Memory.wf_write64 {m : Memory} (hm : Memory.wf m = true) (a : Nat) (v : Word) :
    Memory.wf (Memory.write64 m a v) = true := by
  unfold Memory.write64
  generalize List.range 8 = js
  induction js generalizing m with
  | nil => exact hm
  | cons j js ih => exact ih (Memory.wf_writeByte hm _ _)

/-- The memory after reset has the canonical form. -/
theorem reset_mem_wf : Memory.wf State.reset.mem = true := rfl

/-- Every address a byte write lists was listed before or is the one written. -/
theorem Memory.mem_writeByte {m : Memory} {a : Nat} {b : Byte} {c : Host.Cell} (h : c ∈ Memory.writeByte m a b) :
    c = (a, b) ∨ c ∈ m := by
  induction m with
  | nil => simpa [Memory.writeByte] using h
  | cons d m ih =>
    obtain ⟨k, d⟩ := d
    simp only [Memory.writeByte] at h
    split at h
    · simpa using h
    · split at h
      · rcases List.mem_cons.1 h with h | h
        · exact .inl h
        · exact .inr (List.mem_cons_of_mem _ h)
      · rcases List.mem_cons.1 h with h | h
        · exact .inr (h ▸ List.mem_cons_self)
        · rcases ih h with h | h
          · exact .inl h
          · exact .inr (List.mem_cons_of_mem _ h)

/-- The bytes of a register write: byte `a + j` is byte j of the value, the other bytes are as they were (R96). -/
theorem Memory.readByte_write64 (m : Memory) (a : Nat) (v : Word) (x : Nat) :
    Memory.readByte (Memory.write64 m a v) x =
      if a ≤ x ∧ x < a + 8 then some (byteOf v (x - a)) else Memory.readByte m x := by
  simp only [Memory.write64, show List.range 8 = [0, 1, 2, 3, 4, 5, 6, 7] from rfl, List.foldl_cons, List.foldl_nil,
    Memory.readByte_writeByte]
  by_cases h : a ≤ x ∧ x < a + 8
  · obtain ⟨j, rfl⟩ := Nat.exists_eq_add_of_le h.1
    have hj : j < 8 := by omega
    rw [if_pos h]
    have : j = 0 ∨ j = 1 ∨ j = 2 ∨ j = 3 ∨ j = 4 ∨ j = 5 ∨ j = 6 ∨ j = 7 := by omega
    rcases this with rfl | rfl | rfl | rfl | rfl | rfl | rfl | rfl <;> simp
  · rw [if_neg h]
    repeat rw [if_neg (by omega)]

/-- What a byte of the operand registers holds after a register was written. -/
theorem State.byteAt_writeOpnd (s : State) (k : Nat) (v : Word) (x : Nat) :
    (s.writeOpnd k v).byteAt x =
      if opndOffset k ≤ x ∧ x < opndOffset k + 8 then byteOf v (x - opndOffset k) else s.byteAt x := by
  simp only [State.byteAt, State.writeOpnd, Memory.readByte_write64]
  split <;> rfl

/-- A word put together from its bytes is the word (R96). -/
theorem byteOf_append (v : Word) :
    byteOf v 7 ++ byteOf v 6 ++ byteOf v 5 ++ byteOf v 4 ++ byteOf v 3 ++ byteOf v 2 ++ byteOf v 1 ++ byteOf v 0 = v := by
  simp only [byteOf]
  ext i hi
  simp only [BitVec.getElem_append, BitVec.getElem_extractLsb']
  repeat' split
  all_goals
    rw [← BitVec.getLsbD_eq_getElem hi]
    congr 1
    omega

/-- The bits of a word put together from eight bytes. -/
theorem getLsbD_bytes (b7 b6 b5 b4 b3 b2 b1 b0 : Byte) (i : Nat) :
    BitVec.getLsbD (b7 ++ b6 ++ b5 ++ b4 ++ b3 ++ b2 ++ b1 ++ b0 : Word) i =
      if i < 8 then b0.getLsbD i
      else if i < 16 then b1.getLsbD (i - 8)
      else if i < 24 then b2.getLsbD (i - 16)
      else if i < 32 then b3.getLsbD (i - 24)
      else if i < 40 then b4.getLsbD (i - 32)
      else if i < 48 then b5.getLsbD (i - 40)
      else if i < 56 then b6.getLsbD (i - 48)
      else b7.getLsbD (i - 56) := by
  have low : ∀ {n : Nat} (x : BitVec n) (y : Byte) (i : Nat),
      BitVec.getLsbD (x ++ y) i = if i < 8 then y.getLsbD i else x.getLsbD (i - 8) := by
    intro n x y i
    rw [BitVec.getLsbD_append]
  show BitVec.getLsbD (HAppend.hAppend (α := BitVec (8 + 8 + 8 + 8 + 8 + 8 + 8)) _ b0) i = _
  simp only [low, Nat.sub_sub]
  split
  · rfl
  · simp only [show i - 8 < 8 ↔ i < 16 by omega, show i - (8 + 8) < 8 ↔ i < 24 by omega,
      show i - (8 + 8 + 8) < 8 ↔ i < 32 by omega, show i - (8 + 8 + 8 + 8) < 8 ↔ i < 40 by omega,
      show i - (8 + 8 + 8 + 8 + 8) < 8 ↔ i < 48 by omega, show i - (8 + 8 + 8 + 8 + 8 + 8) < 8 ↔ i < 56 by omega]

/-- Byte j of OPND[k] is the byte at offset j of the register (R96). -/
theorem State.byteOf_opnd (s : State) (k : Nat) {j : Nat} (hj : j < 8) :
    byteOf (s.opnd k) j = s.byteAt (opndOffset k + j) := by
  apply BitVec.eq_of_getLsbD_eq
  intro i hi
  simp only [byteOf, BitVec.getLsbD_extractLsb', hi, decide_true, Bool.true_and, State.opnd, getLsbD_bytes]
  have : j = 0 ∨ j = 1 ∨ j = 2 ∨ j = 3 ∨ j = 4 ∨ j = 5 ∨ j = 6 ∨ j = 7 := by omega
  rcases this with rfl | rfl | rfl | rfl | rfl | rfl | rfl | rfl
  all_goals
    repeat rw [if_neg (by omega)]
    try rw [if_pos (by omega)]
    simp

/-- Registers whose eight bytes agree hold the same value. -/
theorem State.opnd_congr {s t : State} {k : Nat}
    (h : ∀ j, j < 8 → s.byteAt (opndOffset k + j) = t.byteAt (opndOffset k + j)) : s.opnd k = t.opnd k := by
  have h0 := h 0 (by omega)
  simp only [Nat.add_zero] at h0
  simp only [State.opnd, h0, h 1 (by omega), h 2 (by omega), h 3 (by omega), h 4 (by omega), h 5 (by omega),
    h 6 (by omega), h 7 (by omega)]

/-- OPND[k] reads what was written to it (R31). -/
@[simp] theorem State.opnd_writeOpnd_same (s : State) (k : Nat) (v : Word) : (s.writeOpnd k v).opnd k = v := by
  have h : ∀ j, j < 8 → (s.writeOpnd k v).byteAt (opndOffset k + j) = byteOf v j := by
    intro j hj
    rw [State.byteAt_writeOpnd, if_pos (by omega)]
    simp
  have h0 := h 0 (by omega)
  simp only [Nat.add_zero] at h0
  simp only [State.opnd, h0, h 1 (by omega), h 2 (by omega), h 3 (by omega), h 4 (by omega), h 5 (by omega),
    h 6 (by omega), h 7 (by omega), byteOf_append]

/-- Writing one operand register leaves the others (R31). -/
theorem State.opnd_writeOpnd_other {k n : Nat} (h : n ≠ k) (s : State) (v : Word) :
    (s.writeOpnd k v).opnd n = s.opnd n := by
  refine State.opnd_congr fun j hj => ?_
  rw [State.byteAt_writeOpnd, if_neg]
  simp only [opndOffset]
  omega

/-- A write of OPND[k] makes it a written register (R31). -/
@[simp] theorem State.opndWritten_writeOpnd_same (s : State) (k : Nat) (v : Word) :
    (s.writeOpnd k v).opndWritten k = true := by
  simp only [State.opndWritten, List.all_eq_true, List.mem_range]
  intro j hj
  rw [State.writeOpnd_mem, Memory.readByte_write64, if_pos (by omega)]
  rfl

/-- A register the host has written does not rest on the free values (R31). -/
theorem State.opnd_resets {s : State} {k : Nat} (h : s.opndWritten k = true) (n : Nat) :
    State.opnd { s with resets := n } k = s.opnd k := by
  simp only [State.opndWritten, List.all_eq_true, List.mem_range] at h
  refine State.opnd_congr fun j hj => ?_
  obtain ⟨b, hb⟩ := Option.isSome_iff_exists.1 (h j hj)
  simp [State.byteAt, hb]

end Sys2Proof.Machine
end

