-- ==== Sys2Proof/Laws/PerInstr.lean ====
section
/-!
SUPPORT. What is proved instruction by instruction: the encoder's word carries the instruction's opcode, and its
reserved bits are 0 (30_encoding.md R120 to R122, R130).
-/

namespace Sys2Proof.Laws.OpcodeField

/-- OP of the instruction's word is its opcode (R121, R130), and bits [63:32] are 0 (R122). -/
def Statement (i : Instr) : Prop := fieldOp (encode i) = opcodeOf i ∧ fieldReserved (encode i) = 0

variable (var : BitVec 6) (zok lok : Bool) (cnt : BitVec 10) (inst dst : BitVec 4)

theorem nop : Statement .nop := by simp [Statement, encode]

theorem seed : Statement (.seed var zok lok cnt inst) := by simp [Statement, encode]

theorem seedBytes : Statement (.seedBytes var zok lok cnt inst) := by simp [Statement, encode]

theorem seedKey : Statement (.seedKey var zok cnt inst) := by simp [Statement, encode]

theorem seedEntropy : Statement (.seedEntropy var inst) := by simp [Statement, encode]

theorem next : Statement (.next inst) := by simp [Statement, encode]

theorem next32 : Statement (.next32 inst) := by simp [Statement, encode]

theorem jump : Statement (.jump inst) := by simp [Statement, encode]

theorem longJump : Statement (.longJump inst) := by simp [Statement, encode]

theorem advance : Statement (.advance inst) := by simp [Statement, encode]

theorem clone : Statement (.clone inst dst) := by simp [Statement, encode]

theorem stateRead : Statement (.stateRead inst) := by simp [Statement, encode]

theorem stateWrite : Statement (.stateWrite inst) := by simp [Statement, encode]

theorem query : Statement (.query inst) := by simp [Statement, encode]

end Sys2Proof.Laws.OpcodeField
end

