-- ==== Sys2Proof/Tests/Slice0.lean ====
section
/-!
SUPPORT. Tests: the range checks refuse an ill-formed instruction; words written out from the spec's encodings decode;
one step of each command against the spec's examples (95_test_vectors.md and the rules' own); and, for each statement of
Certificates/Slice0/Obligations.lean that has hypotheses, a state and operands that meet them, at the boundary values.
-/

namespace Sys2Proof.Tests

open Sys2Proof Sys2Proof.Machine

/-- A block whose first instances hold the engines `es`, followed by one unseeded instance, with `ops` in OPND[0..]. -/
def st (es : List Engine) (ops : List Word) : State :=
  ops.zipIdx.foldl (fun s p => s.writeOpnd p.2 p.1)
    { State.reset with insts := es.map (fun e => { valid := true, engine := e }) ++ [Inst.unseeded] }

/-- The next state, if there is one. -/
def after (o : Host.Outcome State Fault Refusal) : Option State :=
  match o with
  | .next t => some t
  | .fault _ => none
  | .refused _ => none

/-- RES after a command. -/
def res (i : Instr) (s : State) : Option Word := (after (exec i s)).map State.res

/-- STATUS after a command. -/
def status (i : Instr) (s : State) : Option Word := (after (exec i s)).map statusWord

/-- The engine of instance 0 after a command. -/
def engine0 (i : Instr) (s : State) : Option Engine := (after (exec i s)).map fun t => (t.inst 0).engine

/-! ### WellFormed: one ill-formed term for each check -/

/-- INST below NINST (R124). -/
theorem test_wf_inst : Instr.wellFormed 4 (.next 3) = true ∧ Instr.wellFormed 4 (.next 4) = false := by decide

/-- CLONE's DST below NINST (R124). -/
theorem test_wf_dst : Instr.wellFormed 4 (.clone 0 3) = true ∧ Instr.wellFormed 4 (.clone 0 4) = false := by decide

/-- VAR assigned (R133): 0x0E and 0x3F are reserved. -/
theorem test_wf_var : Instr.wellFormed 4 (.seed 0x0D false false 1 0) = true ∧
    Instr.wellFormed 4 (.seed 0x0E false false 1 0) = false ∧
    Instr.wellFormed 4 (.seedEntropy 0x3F 0) = false := by decide

/-! ### Decoding: words from R140, R136, V-ENC and V-CMD -/

/-- A word for every constructor. -/
theorem test_decode_words :
    decode 0x0 = .ok .nop ∧
    decode 0x101C1 = .ok (.seed 0x07 false false 4 0) ∧
    decode 0x0100A181 = .ok (.seed 0x06 false true 2 1) ∧
    decode 0x03010602 = .ok (.seedBytes 0x18 false false 4 3) ∧
    decode 0x03010603 = .ok (.seedKey 0x18 false 4 3) ∧
    decode 0x84 = .ok (.seedEntropy 0x02 0) ∧
    decode 0x02000008 = .ok (.next 2) ∧
    decode 0x02000009 = .ok (.next32 2) ∧
    decode 0x10 = .ok (.jump 0) ∧
    decode 0x01000011 = .ok (.longJump 1) ∧
    decode 0x02000012 = .ok (.advance 2) ∧
    decode 0x10000018 = .ok (.clone 0 1) ∧
    decode 0x0100001C = .ok (.stateRead 1) ∧
    decode 0x1D = .ok (.stateWrite 0) ∧
    decode 0x0200001E = .ok (.query 2) := by decide

/-- Words the decoder refuses (V-ENC). -/
theorem test_decode_refused :
    decode 0x01000000 = .error .unusedField ∧
    decode 0x3F = .error .reservedOpcode ∧
    decode 0x4008 = .error .unusedField ∧
    decode 0x100000008 = .error .reservedBits ∧
    decode 0x6603 = .error .unusedField := by decide

/-- The host's two probes: a table word decodes, and runs as the first instruction after reset (V-CMD: ERR = 4). -/
theorem test_table_word : decodeTableWord 64 0x12 = some (.advance 0) ∧
    (after (step (State.reset.withFetchWord 64 0x12))).map statusWord = some 0x424 := by decide

/-- Illegal words end in ERR = 5, STICKY = 1 (V-CMD: STATUS = 0x425). -/
theorem test_illegal_words :
    (([0x04000008, 0x100000008, 0x3F, 0x4FC1, 0x4381, 0x6603] : List Word).all fun w =>
      (after (runCommand State.reset w)).map statusWord == some 0x425) = true := by decide +kernel

/-! ### One step of each command -/

/-- NOP after an error: ERR = 0, STICKY stays (V-CMD: 0x420). -/
theorem test_nop : status .nop (State.reset.refuse .unseeded) = some 0x420 := by decide

/-- SEED with two words and LOK: padded from the stream of the last word (R224, P4). -/
theorem test_seed_pads : engine0 (.seed 0x06 false true 2 0) (st [] [5, 7]) =
    some (.xoshiro256pp #v[5, 7, 0x63CBE1E459320DD7, 0x044C3CD7F43C661C]) := by decide +kernel

/-- Truncation keeps (0, 0), which is all zero (V-CMD: ERR = 1). -/
theorem test_seed_zero : (status (.seed 0x02 false true 3 0) (st [] [0, 0, 9])).map (·.extractLsb' 0 6) = some 0x21 := by
  decide +kernel

/-- 12 bytes with LOK: the second element is completed with zero bytes (V-CMD). -/
theorem test_seedBytes : engine0 (.seedBytes 0x02 false true 12 0) (st [] [0x0807060504030201, 0x100F0E0D0C0B0A09]) =
    some (.xoroshiro128p #v[0x0807060504030201, 0x000000000C0B0A09]) := by decide +kernel

/-- 12 bytes without LOK (V-CMD: ERR = 1). -/
theorem test_seedBytes_length :
    (status (.seedBytes 0x02 false false 12 0) (st [] [1, 2])).map (·.extractLsb' 0 6) = some 0x21 := by decide +kernel

/-- SEED_KEY on a non-MT variant, CNT = 0: the variant is checked first (V-CMD: 0x422). -/
theorem test_seedKey_variant : status (.seedKey 0x10 false 0 0) State.reset = some 0x422 := by decide

/-- SEED_KEY with CNT = 0 (V-CMD: 0x421). -/
theorem test_seedKey_empty : status (.seedKey 0x18 false 0 0) State.reset = some 0x421 := by decide

/-- SEED_ENTROPY with a reserved VAR is refused before any draw (R169, R490). -/
theorem test_seedEntropy : (after (exec (.seedEntropy 0x3F 0) State.reset)).map (fun t => (t.err, t.draws)) =
    some (5, 0) := by decide

/-- The third xoshiro256** output of s = [1, 2, 3, 4], from the state after two (R236, R239). -/
theorem test_next : res (.next 0) (st [.xoshiro256ss (step256 (step256 #v[1, 2, 3, 4]))] []) = some 1509978240 := by
  decide +kernel

/-- NR's first MWC128 value (R171, R423). -/
theorem test_next_mwc : res (.next 0) (st [.mwc128 ⟨#v[0x12345678], 1⟩] []) = some 1311768465173141112 := by
  decide +kernel

/-- NR's first PCG32 value (R300, R302). -/
theorem test_next32 : res (.next32 0) (st [.pcg32 ⟨0x3C4EEF3E4ECA183E, 0x130ECA865⟩] []) = some 2098444299 := by
  decide +kernel

/-- NEXT32 on a 64-bit variant (R173: ERR = 2). -/
theorem test_next32_unsupported : (after (exec (.next32 0) (st [.splitmix64 1] []))).map State.err = some 2 := by
  decide +kernel

/-- JUMP on MWC128 (R465). -/
theorem test_jump : engine0 (.jump 0) (st [.mwc128 ⟨#v[0x9ABA154D0F99822B], 0xF4310B93191DA854⟩] []) =
    some (.mwc128 ⟨#v[0xA135582290FF039C], 0xF2B54F64889FC460⟩) := by decide +kernel

/-- JUMP on XOROSHIRO128PP from s = [1, 2] (V-J). -/
theorem test_jump_gf2 : engine0 (.jump 0) (st [.xoroshiro128pp #v[1, 2]] []) =
    some (.xoroshiro128pp #v[0x77B2EAD123DDE4BB, 0xF60F09E0665F8D42]) := by decide +kernel

/-- LONG_JUMP on MWC128, after the NEXT that follows the JUMP (R465). -/
theorem test_longJump : engine0 (.longJump 0)
    (st [.mwc128 (mwcStep mwc128A ⟨#v[0xA135582290FF039C], 0xF2B54F64889FC460⟩)] []) =
    some (.mwc128 ⟨#v[0x0D6E542C5A7E62AF], 0x03D4F42F62CCD58D⟩) := by decide +kernel

/-- LONG_JUMP on GMWC128 (R463: ERR = 2). -/
theorem test_longJump_gmwc : (after (exec (.longJump 0) (st [.gmwc128 ⟨1, 1⟩] []))).map State.err = some 2 := by
  decide +kernel

/-- ADVANCE by 1000 on PCG32 seeded with (42, 54) (R311). -/
theorem test_advance : engine0 (.advance 0) (st [initEngine .pcg32 [42, 54]] [1000]) =
    some (.pcg32 ⟨0x77D57A2A8F8FC510, 0x6D⟩) := by decide +kernel

/-- ADVANCE by 2^64 on PCG64 seeded with (42, 0, 54, 0): OPND[1] is the high half (R311, R98). -/
theorem test_advance_wide : engine0 (.advance 0) (st [initEngine .pcg64 [42, 0, 54, 0]] [0, 1]) =
    some (.pcg64 ⟨0x9C3F548221203276D3F6C45A41E54320, 0x6D⟩) := by decide +kernel

/-- CLONE into an unseeded instance (R177). -/
theorem test_clone : (after (exec (.clone 0 1) (st [.splitmix64 9] []))).map (fun t => t.inst 1) =
    some { valid := true, engine := .splitmix64 9 } := by decide +kernel

/-- CLONE from an unseeded source (V-CMD: 0x424). -/
theorem test_clone_unseeded : status (.clone 1 0) State.reset = some 0x424 := by decide

/-- PEEK of PCG32's inc (R178, P3). -/
theorem test_stateRead : res (.stateRead 0) (st [.pcg32 ⟨0x3C4EEF3E4ECA183E, 0x130ECA865⟩] [1]) =
    some 0x130ECA865 := by decide +kernel

/-- Index NSV is out of range (R178: ERR = 6). -/
theorem test_stateRead_range : (after (exec (.stateRead 0) (st [.pcg32 ⟨1, 1⟩] [2]))).map State.err = some 6 := by
  decide +kernel

/-- POKE of s[1], then the sum of s = [5, 6] is 11 (R179). -/
theorem test_stateWrite : engine0 (.stateWrite 0) (st [.xoroshiro128p #v[5, 2]] [1, 6]) =
    some (.xoroshiro128p #v[5, 6]) ∧ res (.next 0) (st [.xoroshiro128p #v[5, 6]] []) = some 11 := by decide +kernel

/-- p of xoroshiro1024 takes 15 and not 16 (R65, V-CMD: ERR = 6). -/
theorem test_stateWrite_value :
    (after (exec (.stateWrite 0) (st [initEngine .xoroshiro1024ss [1]] [16, 16]))).map State.err = some 6 ∧
    (after (exec (.stateWrite 0) (st [initEngine .xoroshiro1024ss [1]] [16, 15]))).map State.err = some 0 := by
  decide +kernel

/-- QUERY on PCG32 (R180, P3). -/
theorem test_query : res (.query 0) (st [.pcg32 ⟨1, 1⟩] []) = some 0x0000000F00020010 := by decide +kernel

/-- The STATUS example of R34. -/
theorem test_status : statusWord { State.reset with
    insts := [⟨true, .splitmix64 1⟩, ⟨true, .splitmix64 1⟩, Inst.unseeded, Inst.unseeded]
    err := 2
    sticky := true } = 0x30422 := by decide

/-! ### Witnesses: states and operands that meet the hypotheses of the statements -/

/-- Writing operands leaves the instances. -/
theorem foldl_writeOpnd_insts (ps : List (Word × Nat)) (s : State) :
    (ps.foldl (fun s p => s.writeOpnd p.2 p.1) s).insts = s.insts := by
  induction ps generalizing s with
  | nil => rfl
  | cons p ps ih =>
    rw [List.foldl_cons, ih]
    rfl

/-- Instance 0 of a test state holds the first engine. -/
theorem st_holds (e : Engine) (ops : List Word) : (st [e] ops).holds 0 e := by
  have h : (st [e] ops).insts = [{ valid := true, engine := e }, Inst.unseeded] := by
    simp only [st, foldl_writeOpnd_insts]
    rfl
  exact ⟨by simp [State.ninst, h], by simp [State.inst, h]⟩

/-- A block with one event waiting. -/
def waiting (early : Bool) (act : HostAct) : State := { State.reset with inbox := [⟨early, act⟩] }

/-- The same while a NOP is executing. -/
def busyWith (early : Bool) (act : HostAct) : State := { waiting early act with running := some 0 }

theorem witness_decodeEncode : decode 0x1D = .ok (.stateWrite 0) := by decide

theorem witness_opcodeTable : decode 0x04000008 = .ok (.next 4) ∧
    Instr.wellFormed State.reset.ninst (.next 4) = false ∧ (0x0F000008 : Word) &&& 0xFFFFFFFFF0FFFFFF = 8 := by decide

theorem witness_illegalCommandExactly :
    IllegalWord 4 0x100000000 ∧ IllegalWord 4 0x05 ∧ IllegalWord 4 0x4008 ∧ IllegalWord 4 0x04000008 ∧
      IllegalWord 4 0x40000018 ∧ IllegalWord 4 0x4381 ∧
      ∃ t, runCommand State.reset 0x05 = .next t ∧ t.err = 5 := by
  refine ⟨.inl (by decide), .inr (.inl (by decide)), .inr (.inr (.inl ⟨opcodeRows[5], by decide⟩)),
    .inr (.inr (.inr (.inl (by decide)))), .inr (.inr (.inr (.inr (.inl (by decide))))),
    .inr (.inr (.inr (.inr (.inr (by decide))))), _, rfl, rfl⟩

theorem witness_stepRunsDecodedCommand :
    (State.reset.withCommand 0x12).due 0x12 ∧ decode 0x12 = .ok (.advance 0) ∧
      (State.reset.withCommand 0x3F).due 0x3F ∧ decode 0x3F = .error .reservedOpcode :=
  ⟨⟨rfl, fun _ _ h => by cases h⟩, by decide, ⟨rfl, fun _ _ h => by cases h⟩, by decide⟩

theorem witness_busyProtocol :
    (busyWith true (.read 8 8)).running = some 0 ∧ (busyWith true (.read 8 8)).inbox = [⟨true, .read (0 + 8) 8⟩] ∧
      (busyWith true (.read 0x10 8)).inbox = [⟨true, .read 0x10 8⟩] ∧ HostAct.read 0x10 8 ≠ .read (0 + 8) 8 ∧
      HostAct.read 0x10 8 ≠ .reset ∧ (waiting true (.read 0x10 8)).running = none := by decide

/-- Both ends of every row of the register map. -/
theorem witness_registerMap :
    ([0x0, 0x8, 0x10, 0x18, 0xFF8, 0x1000, 0x2FF8, 0x3000, 0x3FF8].all fun off =>
      decide (off % 8 = 0 ∧ off < 0x4000 ∧ (waiting false (.read off 8)).running = none ∧
        (waiting false (.read off 8)).inbox = [⟨false, .read (0 + off) 8⟩] ∧
        (waiting true (.write off 8 7)).inbox = [⟨true, .write (0 + off) 8 7⟩])) = true := by decide +kernel

theorem witness_littleEndian : (st [] [0x0807060504030201]).opnd 0 = 0x0807060504030201 ∧
    (waiting false (.write 0x2FF8 8 7)).running = none ∧
    (waiting false (.write 0x2FF8 8 7)).inbox = [⟨false, .write (0 + 0x1000 + 8 * 1023) 8 7⟩] := by decide +kernel

theorem witness_busError : ¬ (8 = 8 ∧ 0x3FFF % 8 = 0) ∧ ¬ (4 = 8 ∧ 8 % 8 = 0) ∧
    (waiting false (.read 0x3FFF 8)).inbox = [⟨false, .read (0 + 0x3FFF) 8⟩] ∧
    (waiting false (.write 8 4 7)).inbox = [⟨false, .write (0 + 8) 4 7⟩] := by decide

theorem witness_resetInput : (waiting false .reset).inbox = [⟨false, .reset⟩] ∧
    (waiting false .reset).running = none ∧ (busyWith true .reset).inbox = [⟨true, .reset⟩] ∧
    (busyWith true .reset).running = some 0 := by decide

theorem witness_resetValues : statusWord (State.resetWith State.reset.params 16) = 0x1000 ∧
    neededInst (.query 15) = some 15 ∧ Instr.wellFormed 16 (.query 15) = true := by decide

theorem witness_statusLayout : (State.resetWith State.reset.params 16).ninst ≤ 16 ∧
    (∃ t, step (State.reset.withCommand 0x3F) = .next t ∧ State.reset.err.toNat < 7) ∧
    (State.busy { State.reset with err := 2, sticky := true, insts := [⟨true, .splitmix64 1⟩, ⟨true, .splitmix64 1⟩,
      Inst.unseeded, Inst.unseeded] }) = false := ⟨by decide, ⟨_, rfl, by decide⟩, by decide⟩

/-- A refused command, and a refused word (Rollback, ErrorCodes, Sticky, ResultWriters). -/
theorem witness_refused :
    (∃ t, exec (.jump 0) State.reset = .next t ∧ t.err ≠ 0) ∧
    (∃ t, runCommand State.reset 0x3F = .next t ∧ t.err ≠ 0 ∧ decode 0x3F = .error .reservedOpcode) :=
  ⟨⟨_, rfl, by decide⟩, ⟨_, rfl, by decide, by decide⟩⟩

/-- STICKY is cleared by the reset input alone. -/
theorem witness_sticky : ∃ t, step { waiting false .reset with sticky := true } = .next t ∧ t.sticky = false :=
  ⟨_, rfl, rfl⟩

/-- A command that does not write RES and completes. -/
theorem witness_resultWriters :
    (∃ t, exec .nop State.reset = .next t) ∧
      ∀ k, Instr.nop ≠ .next k ∧ Instr.nop ≠ .next32 k ∧ Instr.nop ≠ .stateRead k ∧ Instr.nop ≠ .query k :=
  ⟨⟨_, rfl⟩, fun _ => by simp⟩

/-- The other instances differ, the one read agrees: a command that completes, one that is refused. -/
theorem witness_instancesIsolated :
    let s := st [.splitmix64 1] []
    let others := [{ valid := true, engine := .splitmix64 1 }, { valid := true, engine := Engine.splitmix64 2 }]
    others.length = s.ninst ∧ State.inst { s with insts := others } 0 = s.inst 0 ∧
      (∃ t, exec (.next 0) s = .next t ∧ t.err = 0) ∧ (∃ t, exec (.jump 0) s = .next t ∧ t.err ≠ 0) :=
  ⟨by decide, by decide, ⟨_, rfl, rfl⟩, ⟨_, rfl, by decide⟩⟩

theorem witness_commandFrame :
    (∃ t, exec (.clone 0 1) (st [.splitmix64 1] []) = .next t ∧ t.err = 0) ∧
      (∀ var k, Instr.clone 0 1 ≠ .seedEntropy var k) ∧ targetOf (.clone 0 1) ≠ some 0 :=
  ⟨⟨_, rfl, rfl⟩, fun _ _ => by simp, by decide⟩

/-- Every command that needs a seeded instance, on an unseeded one. -/
theorem witness_unseededExactly :
    ([.next 3, .next32 3, .jump 3, .longJump 3, .advance 3, .clone 3 0, .stateRead 3, .stateWrite 3, .query 3].all
      fun i => i.wellFormed State.reset.ninst && decide (neededInst i = some 3) &&
        !(State.reset.inst 3).valid) = true ∧
      ∃ t, exec (.query 3) State.reset = .next t ∧ t.err = 4 := ⟨by decide, _, rfl, by decide⟩

/-- Each case of R483 is met. -/
theorem witness_unsupportedExactly :
    let s := st [.gmwc128 ⟨1, 1⟩] []
    let u := st [.sfc64 ⟨1, 1, 1, 1⟩] []
    Instr.wellFormed s.ninst (.seedKey 0x10 false 0 0) = true ∧ UnsupportedCase s (.seedKey 0x10 false 0 0) ∧
      s.seededFor (.next32 0) ∧ UnsupportedCase s (.next32 0) ∧ UnsupportedCase s (.longJump 0) ∧
      UnsupportedCase s (.advance 0) ∧ u.seededFor (.jump 0) ∧ UnsupportedCase u (.jump 0) ∧
      ∃ t, exec (.jump 0) u = .next t ∧ t.err = 2 := by
  refine ⟨by decide, ⟨.pcg32, by decide, by decide⟩, ?_, by simp only [UnsupportedCase]; decide,
    by simp only [UnsupportedCase]; decide, by simp only [UnsupportedCase]; decide, ?_,
    by simp only [UnsupportedCase]; decide, _, rfl, rfl⟩
  · intro k hk
    cases hk
    decide
  · intro k hk
    cases hk
    decide

/-- Each case of R482 is met: a wrong length, a zero seed, a partial element, an empty key, a zero key. -/
theorem witness_invalidSeedExactly :
    (∃ t, exec (.seed 0x02 true false 3 0) (st [] [1, 1, 1]) = .next t ∧ t.err = 1) ∧
    (∃ t, exec (.seed 0x02 false true 3 0) (st [] [0, 0, 9]) = .next t ∧ t.err = 1) ∧
    (∃ t, exec (.seedBytes 0x01 false false 7 0) (st [] [1]) = .next t ∧ t.err = 1) ∧
    (∃ t, exec (.seedKey 0x18 true 0 0) (st [] []) = .next t ∧ t.err = 1) ∧
    (∃ t, exec (.seedKey 0x18 false 1 0) (st [] [0xFFFFFFFF00000000]) = .next t ∧ t.err = 1) := by
  refine ⟨⟨_, rfl, ?_⟩, ⟨_, rfl, ?_⟩, ⟨_, rfl, ?_⟩, ⟨_, rfl, ?_⟩, ⟨_, rfl, ?_⟩⟩ <;> decide +kernel

/-- The first index out of range, and the first value out of range. -/
theorem witness_stateAccessExactly :
    (st [.pcg32 ⟨1, 1⟩] [2]).holds 0 (.pcg32 ⟨1, 1⟩) ∧ (st [.pcg32 ⟨1, 1⟩] [2]).opnd 0 = 2 ∧
      stateWords .pcg32 ≤ (2 : Word).toNat ∧
      (st [initEngine .xoroshiro1024s [1]] [16, 16]).holds 0 (initEngine .xoroshiro1024s [1]) ∧
      (st [initEngine .xoroshiro1024s [1]] [16, 16]).opnd 1 = 16 ∧ legalValue .xoroshiro1024s 16 16 = false ∧
      legalValue .xoroshiro1024s 16 15 = true ∧ legalValue .mt19937 0 0x100000000 = false ∧
      legalValue .mt19937 624 625 = false ∧ legalValue .mt19937w64 312 313 = false ∧
      ∃ t, exec (.stateRead 0) (st [.pcg32 ⟨1, 1⟩] [2]) = .next t ∧ t.err = 6 :=
  ⟨st_holds _ _, by decide +kernel, by decide, st_holds _ _, by decide +kernel, by decide, by decide, by decide,
    by decide, by decide, _, rfl, by decide +kernel⟩

/-- A command whose operand nothing has written since reset completes, by the value the register holds, which nothing fixes
(CommandsComplete; R488, log entry 3). -/
theorem test_unwritten_operand :
    let s := st [.pcg32 ⟨1, 1⟩] []
    s.readsUnwritten (.advance 0) = true ∧
      exec (.advance 0) s = .next (s.stepped 0 (.pcg32 (lcgAdvance pcgMult32 (s.opnd 0) ⟨1, 1⟩))) :=
  ⟨by decide +kernel, rfl⟩

/-- Other bytes in memory, the operand read alike; a command stopped by an earlier check; all operands written, and one
not. -/
theorem witness_operandsRead :
    let s := st [.splitmix64 1] [0]
    let m := Memory.writeByte s.mem 0x2000 7
    (∀ k, k < operandsRead s (.stateRead 0) → State.opnd { s with mem := m, resets := 1 } k = s.opnd k) ∧
      operandsRead s (.stateWrite 0) = 2 ∧ UnsupportedCase s (.advance 0) ∧ ¬ s.seededFor (.stateRead 1) ∧
      Instr.wellFormed s.ninst (.stateRead 2) = false ∧ s.readsUnwritten (.stateRead 0) = false ∧
      s.readsUnwritten (.stateWrite 0) = true := by
  refine ⟨by decide +kernel, by decide, ?_, fun h => absurd (h 1 rfl) (by decide), by decide, by decide +kernel,
    by decide +kernel⟩
  simp only [UnsupportedCase, (st_holds (.splitmix64 1) [0]).2]
  decide

theorem witness_nopCompletes : (0x01000000 : Word).extractLsb' 0 6 = (0 : BitVec 6) := by decide

/-- The exact length; a longer and a shorter seed with LOK; no seed at all with LOK and ZOK. -/
theorem witness_seedCompletes :
    variantOfCode? 0x02 = some .xoroshiro128p ∧ (st [] [0, 7, 9]).operands [0, 7, 9] ∧
      [0, 7, (9 : Word)].length = (3 : BitVec 10).toNat ∧ (2 : BitVec 10).toNat = seedCount .xoroshiro128p ∧
      (∃ x ∈ [0, 7, (9 : Word)].take (seedCount .xoroshiro128p), x ≠ 0) ∧ (st [] []).operands [] ∧
      (0 : BitVec 4).toNat < (st [] []).ninst := by
  refine ⟨by decide, by decide +kernel, by decide, by decide, ⟨7, by decide, by decide⟩, by decide, by decide⟩

/-- One, no and two elements; the low 32 bits decide for MT19937. -/
theorem witness_seedMersenneCompletes :
    (st [] [0x100000000, 3]).operands [0x100000000, 3] ∧ (0x100000000 : Word).setWidth 32 = (0 : Word32) ∧
      (∃ x ∈ [0x100000000, (3 : Word)], x.setWidth 32 ≠ (0 : Word32)) ∧ (st [] [3]).operands [3] ∧
      (st [] []).operands [] ∧ (0 : BitVec 4).toNat < (st [] []).ninst := by
  refine ⟨by decide +kernel, by decide, ⟨3, by decide, by decide⟩, by decide +kernel, by decide, by decide⟩

/-- A whole and a partial element, and a non-zero byte among the checked ones. -/
theorem witness_seedBytesCompletes :
    variantOfCode? 0x02 = some .xoroshiro128p ∧ (16 % 8 = 0 ∧ (16 + (8 - 1)) / 8 = seedCount .xoroshiro128p) ∧
      8 < 12 ∧ 8 < checkedCount .xoroshiro128p 2 * 8 ∧ operandByte (st [] [1, 2]) 8 ≠ 0 ∧
      variantOfCode? 0x18 = some .mt19937 ∧ (4 + (4 - 1)) / 4 = seedCount .mt19937 := by decide +kernel

theorem witness_seedKeyCompletes :
    (st [] [3]).operands [3] ∧ [(3 : Word)].length = (1 : BitVec 10).toNat ∧ (1 : BitVec 10) ≠ 0 ∧
      (∃ x ∈ [(3 : Word)], x.setWidth 32 ≠ (0 : Word32)) ∧ (∃ x ∈ [(3 : Word)], x ≠ 0) ∧
      (3 : BitVec 4).toNat < State.reset.ninst ∧ [(3 : Word32)] ≠ [] ∧ [(3 : Word)] ≠ [] :=
  ⟨by decide +kernel, by decide, by decide, ⟨3, by decide, by decide⟩, ⟨3, by decide, by decide⟩, by decide, by decide,
    by decide⟩

/-- The wraps of the two loops: i = 623 is rewritten and i returns to 1, j returns to 0 after the last key element. -/
theorem test_keyTurn_wraps :
    (keyTurnFirst 30 1664525 [5] (Vector.replicate 624 (0 : Word32), 623, 0)).1[0] = 5 ∧
      (keyTurnFirst 30 1664525 [5] (Vector.replicate 624 (0 : Word32), 623, 0)).2 = (1, 0) ∧
      (keyTurnSecond 30 1566083941 (Vector.replicate 624 (0 : Word32), 2)).1[2] = 0xFFFFFFFE ∧
      (keyTurnSecond 30 1566083941 (Vector.replicate 624 (0 : Word32), 2)).2 = 3 := by decide +kernel

theorem witness_seedEntropyCompletes :
    (3 : BitVec 4).toNat < State.reset.ninst ∧ variantOfCode? 0x2B = some .gmwc128 := by decide

/-- A 64-bit and a 32-bit variant, with both packings; an unseeded instance (NextCompletes, Next32Completes). -/
theorem witness_nextCompletes :
    (st [.splitmix64 0] []).holds 0 (.splitmix64 0) ∧
      engineVariant (.splitmix64 0) ∉ [Variant.pcg32, .mt19937] ∧
      (st [.pcg32 ⟨0, 1⟩] []).holds 0 (.pcg32 ⟨0, 1⟩) ∧ engineVariant (.pcg32 ⟨0, 1⟩) ∈ [Variant.pcg32, .mt19937] ∧
      (3 : BitVec 4).toNat < State.reset.ninst ∧ (State.reset.inst 3).valid = false :=
  ⟨st_holds _ _, by decide, st_holds _ _, by decide, by decide, by decide⟩

/-- Every engine can be held: the hypotheses of the output and jump statements, for each variant they name. -/
theorem witness_engines (e : Engine) : (st [e] []).holds 0 e := st_holds e []

/-- The boundary counters of the MT variants (MersenneNext). -/
theorem witness_mersenneNext :
    (st [.mt19937 (mtFresh (Vector.replicate 624 1))] []).holds 0 (.mt19937 (mtFresh (Vector.replicate 624 1))) ∧
      (mtFresh (w := 32) (Vector.replicate 624 1)).mti.val = 624 ∧
      (st [.mt19937w64 ⟨Vector.replicate 312 1, 311⟩] []).holds 0 (.mt19937w64 ⟨Vector.replicate 312 1, 311⟩) :=
  ⟨st_holds _ _, rfl, st_holds _ _⟩

/-- The variants of AddRotateNext, Xoroshiro128Next, XoshiroNext, Xoroshiro1024Next, PcgNext, MultiplyCarryNext. -/
theorem witness_next :
    (st [.sfc64 ⟨0, 0, 0, 0⟩] []).holds 0 (.sfc64 ⟨0, 0, 0, 0⟩) ∧
      (st [.jsf64 ⟨1, 2, 3, 4⟩] []).holds 0 (.jsf64 ⟨1, 2, 3, 4⟩) ∧
      (st [.xoroshiro128ss #v[1, 2]] []).holds 0 (.xoroshiro128ss #v[1, 2]) ∧
      (st [.xoshiro256pp #v[1, 2, 3, 4]] []).holds 0 (.xoshiro256pp #v[1, 2, 3, 4]) ∧
      (st [.xoshiro512p #v[1, 2, 3, 4, 5, 6, 7, 8]] []).holds 0 (.xoshiro512p #v[1, 2, 3, 4, 5, 6, 7, 8]) ∧
      (st [.xoroshiro1024s ⟨Vector.replicate 16 1, 15⟩] []).holds 0 (.xoroshiro1024s ⟨Vector.replicate 16 1, 15⟩) ∧
      (st [.pcg64 ⟨0, 0⟩] []).holds 0 (.pcg64 ⟨0, 0⟩) ∧
      (st [.mwc256 ⟨#v[1, 2, 3], 1⟩] []).holds 0 (.mwc256 ⟨#v[1, 2, 3], 1⟩) ∧
      (st [.gmwc128 ⟨-1, -1⟩] []).holds 0 (.gmwc128 ⟨-1, -1⟩) :=
  ⟨st_holds _ _, st_holds _ _, st_holds _ _, st_holds _ _, st_holds _ _, st_holds _ _, st_holds _ _, st_holds _ _,
    st_holds _ _⟩

theorem witness_jumpsComplete :
    (st [.xoroshiro128pp #v[1, 2]] []).holds 0 (.xoroshiro128pp #v[1, 2]) ∧
      (∀ variant ∈ [Engine.xoshiro256p, .xoshiro256pp, .xoshiro256ss],
        (st [variant #v[1, 2, 3, 4]] []).holds 0 (variant #v[1, 2, 3, 4])) ∧
      (jumpEngine (.xoroshiro128pp #v[1, 2])).isSome = true ∧ (longJumpEngine (.xoroshiro128pp #v[1, 2])).isSome = true ∧
      (jumpEngine (.gmwc128 ⟨1, 1⟩)).isSome = true ∧ (longJumpEngine (.gmwc128 ⟨1, 1⟩)).isSome = false :=
  ⟨st_holds _ _, fun _ _ => st_holds _ _, rfl, rfl, rfl, rfl⟩

/-- The indices at both ends of a table and of a state (Xoroshiro128JumpIsStride, PcgJumpsAddUp, TwistRecurrence and
MersenneSeedArray take every state; their indices run to these). -/
theorem witness_indices : 623 < 624 ∧ 622 + 1 < 624 ∧ 311 < 312 ∧ 310 + 1 < 312 ∧
    (st [.xoroshiro128p #v[0, 0]] []).holds 0 (.xoroshiro128p #v[0, 0]) ∧
    (st [.pcg32 ⟨0, 2⟩] []).holds 0 (.pcg32 ⟨0, 2⟩) :=
  ⟨by decide, by decide, by decide, by decide, st_holds _ _, st_holds _ _⟩

theorem witness_advanceIsStepping :
    (st [.pcg32 ⟨1, 1⟩] [0xFFFFFFFFFFFFFFFF]).holds 0 (.pcg32 ⟨1, 1⟩) ∧
      (st [.pcg32 ⟨1, 1⟩] [0xFFFFFFFFFFFFFFFF]).opnd 0 = 0xFFFFFFFFFFFFFFFF ∧
      (st [.pcg64 ⟨1, 1⟩] [0, 1]).holds 0 (.pcg64 ⟨1, 1⟩) ∧ (st [.pcg64 ⟨1, 1⟩] [0, 1]).opnd 0 = 0 ∧
      (st [.pcg64 ⟨1, 1⟩] [0, 1]).opnd 1 = 1 :=
  ⟨st_holds _ _, by decide +kernel, st_holds _ _, by decide +kernel, by decide +kernel⟩

/-- Canonical states of each width, the largest packed value among them (MwcCanonical, MwcJumpIsStride). -/
theorem witness_mwcJumpIsStride :
    (st [.mwc128 ⟨#v[0xFFFFFFFFFFFFFFFE], mwc128A - 1⟩] []).holds 0 (.mwc128 ⟨#v[0xFFFFFFFFFFFFFFFE], mwc128A - 1⟩) ∧
      mwcCanonical mwc128A (⟨#v[0xFFFFFFFFFFFFFFFE], mwc128A - 1⟩ : Mwc 1) ∧
      ¬ mwcCanonical mwc128A (⟨#v[0xFFFFFFFFFFFFFFFF], mwc128A - 1⟩ : Mwc 1) ∧
      (st [.mwc192 ⟨#v[1, 2], 1⟩] []).holds 0 (.mwc192 ⟨#v[1, 2], 1⟩) ∧
      mwcCanonical mwc192A (⟨#v[1, 2], 1⟩ : Mwc 2) ∧
      (st [.mwc256 ⟨#v[1, 2, 3], 1⟩] []).holds 0 (.mwc256 ⟨#v[1, 2, 3], 1⟩) ∧
      mwcCanonical mwc256A (⟨#v[1, 2, 3], 1⟩ : Mwc 3) :=
  ⟨st_holds _ _, by decide +kernel, by decide +kernel, st_holds _ _, by decide +kernel, st_holds _ _,
    by decide +kernel⟩

/-- The bound is met by the largest state below the fixed point, and not by the fixed point (GmwcJumpIsStride). -/
theorem witness_gmwcJumpIsStride :
    (st [.gmwc128 ⟨-1, gmwcA1 + gmwcMinusA0 - 1⟩] []).holds 0 (.gmwc128 ⟨-1, gmwcA1 + gmwcMinusA0 - 1⟩) ∧
      gmwcT ⟨-1, gmwcA1 + gmwcMinusA0 - 1⟩ < gmwcModulus ∧ ¬ gmwcT ⟨-1, gmwcA1 + gmwcMinusA0⟩ < gmwcModulus :=
  ⟨st_holds _ _, by decide +kernel, by decide +kernel⟩

/-- Source seeded, destination unseeded or the same (CloneCompletes, CloneEquivalence); an unseeded source. -/
theorem witness_cloneCompletes :
    (st [.splitmix64 1] []).holds 0 (.splitmix64 1) ∧ (1 : BitVec 4).toNat < (st [.splitmix64 1] []).ninst ∧
      (1 : BitVec 4) ≠ 0 ∧ ((st [.splitmix64 1] []).inst 1).valid = false ∧
      (st [.splitmix64 1] []).ninst ≤ (2 : BitVec 4).toNat :=
  ⟨st_holds _ _, by decide, by decide, by decide, by decide⟩

/-- A sequence with two operand writes, a NOP and the three shapes of CLONE, its third instance outside the pair
(CloneEquivalence); its six commands complete. -/
theorem witness_cloneEquivalence :
    let acts := [.operand 0 0, .operand 1 7, .command .stateWrite, .operand 0 5, .command .stateRead, .command .nop,
      .command (.cloneTo 2), .command (.cloneFrom 2), .command .cloneSelf]
    let s := st [.splitmix64 1, .splitmix64 1, .splitmix64 9] []
    s.holds 0 (.splitmix64 1) ∧ (1 : BitVec 4).toNat < s.ninst ∧ (0 : BitVec 4) ≠ 1 ∧
      (∀ src, SequenceAct.command (.cloneFrom src) ∈ acts → src ≠ 0 ∧ src ≠ 1) ∧
      (runOn 0 acts s).map (fun r => r.2.map Prod.snd) = some [0, 6, 0, 0, 0, 0] := by
  refine ⟨⟨by decide, rfl⟩, by decide, by decide, ?_, by decide +kernel⟩
  intro src h
  simp at h
  subst h
  decide

/-- The last index of a state vector, read and written. -/
theorem witness_stateReadCompletes :
    (st [.pcg32 ⟨1, 1⟩] [1, 4]).holds 0 (.pcg32 ⟨1, 1⟩) ∧ (st [.pcg32 ⟨1, 1⟩] [1, 4]).opnd 0 = 1 ∧
      (st [.pcg32 ⟨1, 1⟩] [1, 4]).opnd 1 = 4 ∧ (stateVector (.pcg32 ⟨1, 1⟩))[1]? = some 1 ∧
      1 < stateWords .pcg32 ∧ stateWords .pcg32 ≤ 2 ∧ legalValue .pcg32 1 4 = true :=
  ⟨st_holds _ _, by decide +kernel, by decide +kernel, rfl, by decide, by decide, by decide⟩

/-- A state with every part of the invariant and a step: a word that is no command. -/
theorem witness_stepKeepsInvariant : State.Inv { State.reset with running := some 0x3F } ∧
    ∃ t, step { State.reset with running := some 0x3F } = .next t := ⟨by decide +kernel, _, rfl⟩

end Sys2Proof.Tests
end

section
/-!
SUPPORT. What a step of the block can do, said once: an event served, a command ended, or nothing (20_memory.md R101,
R102, 70_reset_and_hazards.md R507, R520); and what every command leaves as it was.
-/

namespace Sys2Proof.Machine

/-! ### The frame of a command -/

/-- A command's effects reach the instances and RES alone (R31, R33, R41). -/
theorem Effect.eq_with {i : Instr} {s u : State} (h : Effect i s u) :
    u = { s with insts := u.insts, res := u.res } := by
  cases h <;> rfl

/-- The number of instances is wired (R8). -/
theorem Effect.ninst {i : Instr} {s u : State} (h : Effect i s u) : u.ninst = s.ninst := by
  cases h <;> simp

/-- An instance that is not the command's target stays (R41). -/
theorem Effect.inst_other {i : Instr} {s u : State} {k : BitVec 4} (h : Effect i s u) (hk : targetOf i ≠ some k) :
    u.inst k = s.inst k := by
  have other : ∀ {j}, targetOf i = some j → k ≠ j := by
    rintro j hj rfl
    exact hk hj
  cases h with
  | nothing => rfl
  | engine e hj _ => exact State.setEngine_inst_other (other hj) e
  | result v => rfl
  | both e v hj _ => simpa using State.setEngine_inst_other (other hj) e

/-- A command writes RES, STATUS and the instances, and moves the entropy count; every other field stays. -/
theorem exec_frame {i : Instr} {s t : State} (h : exec i s = .next t) :
    t = { s with
      running := none
      insts := t.insts
      res := t.res
      err := t.err
      sticky := t.sticky
      draws := t.draws } := by
  obtain ⟨n, ⟨e, rfl⟩ | ⟨u, hu, rfl⟩⟩ := exec_cases h
  · rfl
  · rw [hu.eq_with]
    rfl

/-- Every command ends with the number of instances it began with (R8). -/
theorem exec_ninst {i : Instr} {s t : State} (h : exec i s = .next t) : t.ninst = s.ninst := by
  obtain ⟨n, ⟨e, rfl⟩ | ⟨u, hu, rfl⟩⟩ := exec_cases h
  · simp
  · simpa using hu.ninst

/-- Every command leaves an instance it does not name as its target (R41). -/
theorem exec_inst_other {i : Instr} {s t : State} {k : BitVec 4} (h : exec i s = .next t) (hk : targetOf i ≠ some k) :
    t.inst k = s.inst k := by
  obtain ⟨n, ⟨e, rfl⟩ | ⟨u, hu, rfl⟩⟩ := exec_cases h
  · simp
  · simpa using hu.inst_other hk

/-! ### How a command writes STATUS -/

/-- No error has the code of success (R481). -/
theorem errorValue_ne_zero (e : ErrorCode) : errorValue e ≠ 0 := by cases e <;> decide

/-- Codes 7 to 15 are reserved (R481). -/
theorem errorValue_lt_seven (e : ErrorCode) : (errorValue e).toNat < 7 := by cases e <;> decide

/-- STATUS after a command: success leaves ERR = 0 and STICKY as it was, an error leaves its code and sets STICKY
(R35, R37, R484). -/
theorem exec_status {i : Instr} {s t : State} (h : exec i s = .next t) :
    (t.err = 0 ∧ t.sticky = s.sticky) ∨ ∃ e, t.err = errorValue e ∧ t.sticky = true := by
  obtain ⟨n, ⟨e, rfl⟩ | ⟨u, hu, rfl⟩⟩ := exec_cases h
  · exact .inr ⟨e, rfl, rfl⟩
  · exact .inl ⟨rfl, congrArg (fun v => v.sticky) hu.eq_with⟩

/-- A word written to CMD runs the command it decodes to, or is refused (R160, R486). -/
theorem runCommand_cases {s t : State} {w : Word} (h : runCommand s w = .next t) :
    (∃ i, decode w = .ok i ∧ exec i s = .next t) ∨ t = s.refuse .illegalCommand := by
  unfold runCommand at h
  split at h
  · exact .inl ⟨_, ‹_›, h⟩
  · cases h
    exact .inr rfl

/-- STATUS after any word, as after a command: a refused word is an error too (R37, R486). -/
theorem runCommand_status {s t : State} {w : Word} (h : runCommand s w = .next t) :
    (t.err = 0 ∧ t.sticky = s.sticky) ∨ ∃ e, t.err = errorValue e ∧ t.sticky = true := by
  obtain ⟨i, -, hi⟩ | rfl := runCommand_cases h
  · exact exec_status hi
  · exact .inr ⟨.illegalCommand, rfl, rfl⟩

/-! ### Serving the host -/

/-- What serving an act of the host does to the state (R91, R520). -/
inductive Served (s : State) : HostAct → State → Prop
  | answered {addr width : Nat} (v : Word) : Served s (.read addr width) (s.reply v)
  | ignored {addr width : Nat} {v : Word} : Served s (.write addr width v) s
  | accepted {addr width : Nat} {v : Word} : Served s (.write addr width v) { s with running := some v }
  | stored {addr width k : Nat} {v : Word} : k < Config.opndDepth → Served s (.write addr width v) (s.writeOpnd k v)
  | reset : Served s .reset s.resetBlock

/-- The operand registers of the window are OPND[0..1023] (R31, R91). -/
theorem windowReg_opnd_lt {off k : Nat} (h : windowReg off = .opnd k) : k < Config.opndDepth := by
  unfold windowReg at h
  repeat' split at h
  all_goals cases h
  omega

/-- An access reaches the register the map names (R91). -/
theorem accessReg_ok {s : State} {addr width : Nat} {r : WindowReg} (h : accessReg s addr width = .ok r) :
    ∃ off, windowReg off = r := by
  unfold accessReg at h
  repeat' split at h
  all_goals cases h
  exact ⟨_, rfl⟩

/-- An act that is served has done one of the things the register map and the reset input allow. -/
theorem serve_cases {s t : State} {a : HostAct} (h : serve s a = .next t) : Served s a t := by
  cases a with
  | read addr width =>
    simp only [serve, hostRead] at h
    split at h
    · cases h
    · cases h
      exact .answered _
  | write addr width v =>
    simp only [serve, hostWrite] at h
    split at h
    · cases h
    · rename_i r hr
      obtain ⟨off, hoff⟩ := accessReg_ok hr
      cases h
      cases r with
      | cmd => exact .accepted
      | opnd k => exact .stored (windowReg_opnd_lt hoff)
      | status | res | reserved => exact .ignored
  | reset =>
    cases h
    exact .reset

/-- Serving the host keeps STICKY, unless it is the reset input that acts (R37). -/
theorem Served.sticky {s t : State} {a : HostAct} (h : Served s a t) : t.sticky = s.sticky ∨ a = .reset := by
  cases h with
  | reset => exact .inr rfl
  | answered | ignored | accepted | stored => exact .inl rfl

/-- Serving the host keeps ERR, or sets it to 0 (R35). -/
theorem Served.err {s t : State} {a : HostAct} (h : Served s a t) : t.err = s.err ∨ t.err = 0 := by
  cases h with
  | reset => exact .inr rfl
  | answered | ignored | accepted | stored => exact .inl rfl

/-- A step holds the state, serves the first event, or ends the command in execution (R101, R102, R507). -/
theorem step_cases {s t : State} (h : step s = .next t) :
    t = s ∨ (∃ e rest, s.inbox = e :: rest ∧ Served { s with inbox := rest } e.act t) ∨
      ∃ w, runCommand s w = .next t := by
  unfold step at h
  split at h
  · cases h
    exact .inl rfl
  · exact .inr (.inl ⟨_, _, ‹_›, serve_cases h⟩)
  · exact .inr (.inr ⟨_, h⟩)
  · split at h
    · exact .inr (.inl ⟨_, _, ‹_›, serve_cases h⟩)
    · exact .inr (.inr ⟨_, h⟩)

end Sys2Proof.Machine
end

section
/-!
SUPPORT. Two runs of one command from states that may differ in the instances the command does not read: the analysis,
command by command, that the isolation of the instances (10_state.md R41) and the frame of RES (R33) rest on.
-/

namespace Sys2Proof.Machine

/-- The commands that write RES (R33). -/
def WritesRes (i : Instr) : Prop := ∃ k, i = .next k ∨ i = .next32 k ∨ i = .stateRead k ∨ i = .query k

/-- The rule of `i` run from `s` and from `s'` ends alike: in the same error, or in the same effects on both. A command
without an effect on its target has read that target, if it has one. -/
inductive RunsAlike (i : Instr) (s s' : State) : Body → Body → Prop
  | refused (e : ErrorCode) : RunsAlike i s s' (.error e) (.error e)
  | nothing : (∀ k, targetOf i = some k → neededInst i = some k) → RunsAlike i s s' (.ok s) (.ok s')
  | engine {j : BitVec 4} (e : Engine) : targetOf i = some j → j.toNat < s.ninst →
      RunsAlike i s s' (.ok (s.setEngine j e)) (.ok (s'.setEngine j e))
  | result (v : Word) : WritesRes i → (∀ k, targetOf i = some k → neededInst i = some k) →
      RunsAlike i s s' (.ok (s.setRes v)) (.ok (s'.setRes v))
  | both {j : BitVec 4} (e : Engine) (v : Word) : WritesRes i → targetOf i = some j → j.toNat < s.ninst →
      RunsAlike i s s' (.ok ((s.setEngine j e).setRes v)) (.ok ((s'.setEngine j e).setRes v))

/-- Rules with the same first part run alike if their remainders do. -/
theorem RunsAlike.bind {α : Type} {i : Instr} {s s' : State} {x : Except ErrorCode α} {f f' : α → Body}
    (h : ∀ a, x = .ok a → RunsAlike i s s' (f a) (f' a)) : RunsAlike i s s' (x >>= f) (x >>= f') := by
  cases x with
  | ok a => exact h a rfl
  | error e => exact .refused e

/-- The state with other instances: what a command finds where only the instances differ (R41). -/
def State.withInsts (s : State) (others : List Inst) : State := { s with insts := others }

@[simp] theorem State.withInsts_insts (s : State) (others : List Inst) : (s.withInsts others).insts = others := rfl
@[simp] theorem State.withInsts_params (s : State) (others : List Inst) : (s.withInsts others).params = s.params := rfl
@[simp] theorem State.withInsts_opnd (s : State) (others : List Inst) (k : Nat) :
    (s.withInsts others).opnd k = s.opnd k := rfl
@[simp] theorem State.withInsts_entropyWords (s : State) (others : List Inst) (n : Nat) :
    (s.withInsts others).entropyWords n = s.entropyWords n := rfl
@[simp] theorem readOpnds_withInsts (s : State) (others : List Inst) (n : Nat) :
    readOpnds (s.withInsts others) n = readOpnds s n := rfl
@[simp] theorem advanceEngine_withInsts (s : State) (others : List Inst) (e : Engine) :
    advanceEngine (s.withInsts others) e = advanceEngine s e := rfl

/-- Command `i` ends alike from `s` and from `s'`: both take `n` words from the entropy port, SEED_ENTROPY alone more
than none (R72), and end as rules that run alike. -/
def EndsAlike (i : Instr) (s s' : State) : Prop :=
  ∃ n b b', ((∀ var k, i ≠ .seedEntropy var k) → n = 0) ∧ exec i s = finish (s.takeDraws n) b ∧
    exec i s' = finish (s'.takeDraws n) b' ∧ RunsAlike i (s.takeDraws n) (s'.takeDraws n) b b'

/-- A command that draws no entropy ends alike if its rules run alike. -/
theorem EndsAlike.of_runsAlike {i : Instr} {s s' : State} {b b' : Body} (h : exec i s = finish s b)
    (h' : exec i s' = finish s' b') (hr : RunsAlike i s s' b b') : EndsAlike i s s' :=
  ⟨0, b, b', fun _ => rfl, h, h', hr⟩

section
variable {s : State} {others : List Inst} (hlen : others.length = s.ninst)
include hlen

/-- Check 5 depends on the number of the instances alone (R124). -/
theorem checkInst_withInsts (k : BitVec 4) : checkInst (s.withInsts others) k = checkInst s k := by
  unfold checkInst
  rw [show (s.withInsts others).ninst = s.ninst from hlen]

/-- Checks 5 and 6a see no instance's state (R486). -/
theorem seedVariant_withInsts (var : BitVec 6) (k : BitVec 4) :
    seedVariant (s.withInsts others) var k = seedVariant s var k := by
  simp only [seedVariant, checkInst_withInsts hlen]

/-- Checks 5 and 7a, and the engine they find, are the named instance's alone. -/
theorem engineOf_withInsts {k : BitVec 4} (hk : (s.withInsts others).inst k = s.inst k) :
    engineOf (s.withInsts others) k = engineOf s k := by
  simp only [engineOf, checkInst_withInsts hlen, seededEngine, hk]

/-- Every command ends alike from two states that agree on the instance it reads (R41). -/
theorem exec_endsAlike {i : Instr} (hread : ∀ k, neededInst i = some k → (s.withInsts others).inst k = s.inst k) :
    EndsAlike i s (s.withInsts others) := by
  cases i with
  | nop =>
    exact .of_runsAlike rfl rfl (.nothing fun k hk => nomatch hk)
  | seed var zok lok cnt inst =>
    refine .of_runsAlike rfl rfl ?_
    simp only [seedBody, seedVariant_withInsts hlen, readOpnds_withInsts]
    exact .bind fun v hv => .bind fun e _ => .engine e rfl (seedVariant_ok.1 hv).1
  | seedBytes var zok lok cnt inst =>
    refine .of_runsAlike rfl rfl ?_
    simp only [seedBytesBody, seedVariant_withInsts hlen, readOpnds_withInsts]
    exact .bind fun v hv => .bind fun _ _ => .bind fun e _ => .engine e rfl (seedVariant_ok.1 hv).1
  | seedKey var zok cnt inst =>
    refine .of_runsAlike rfl rfl ?_
    simp only [seedKeyBody, seedVariant_withInsts hlen, readOpnds_withInsts]
    exact .bind fun v hv => .bind fun _ _ => .bind fun _ _ => .bind fun _ _ => .engine _ rfl (seedVariant_ok.1 hv).1
  | seedEntropy var inst =>
    have hv' := seedVariant_withInsts hlen var inst
    cases hv : seedVariant s var inst with
    | error p =>
      exact .of_runsAlike (by simp only [exec, execSeedEntropy, hv]) (by simp only [exec, execSeedEntropy, hv', hv])
        (.refused p)
    | ok v =>
      refine ⟨seedCount v, _, _, fun hne => absurd rfl (hne var inst), by simp only [exec, execSeedEntropy, hv]; rfl,
        by simp only [exec, execSeedEntropy, hv', hv]; rfl, ?_⟩
      simp only [State.withInsts_entropyWords]
      cases seedCommon v ((s.entropyWords (seedCount v)).map (truncElement (elementWidth v))) false false with
      | error p => exact .refused p
      | ok g => exact .engine g rfl (seedVariant_ok.1 hv).1
  | next inst =>
    refine .of_runsAlike rfl rfl ?_
    simp only [nextBody, engineOf_withInsts hlen (hread inst rfl), State.withInsts_params]
    exact .bind fun e he => .both _ _ ⟨inst, by simp⟩ rfl (engineOf_ok.1 he).1
  | next32 inst =>
    refine .of_runsAlike rfl rfl ?_
    simp only [next32Body, engineOf_withInsts hlen (hread inst rfl)]
    exact .bind fun e he => .bind fun _ _ => .both _ _ ⟨inst, by simp⟩ rfl (engineOf_ok.1 he).1
  | jump inst =>
    refine .of_runsAlike rfl rfl ?_
    simp only [jumpBody, engineOf_withInsts hlen (hread inst rfl)]
    exact .bind fun e he => .bind fun _ _ => .engine _ rfl (engineOf_ok.1 he).1
  | longJump inst =>
    refine .of_runsAlike rfl rfl ?_
    simp only [longJumpBody, engineOf_withInsts hlen (hread inst rfl)]
    exact .bind fun e he => .bind fun _ _ => .engine _ rfl (engineOf_ok.1 he).1
  | advance inst =>
    refine .of_runsAlike rfl rfl ?_
    simp only [advanceBody, engineOf_withInsts hlen (hread inst rfl), advanceEngine_withInsts]
    exact .bind fun e he => .bind fun _ _ => .engine _ rfl (engineOf_ok.1 he).1
  | clone inst dst =>
    refine .of_runsAlike rfl rfl ?_
    simp only [cloneBody, checkInst_withInsts hlen, seededEngine, hread inst rfl]
    refine .bind fun _ _ => .bind fun _ hdst => .bind fun e _ => ?_
    split
    · subst dst
      exact .nothing fun k hk => hk
    · exact .engine e rfl (checkInst_ok.1 hdst)
  | stateRead inst =>
    refine .of_runsAlike rfl rfl ?_
    simp only [stateReadBody, engineOf_withInsts hlen (hread inst rfl), State.withInsts_opnd]
    refine .bind fun e _ => ?_
    split
    · exact .result _ ⟨inst, by simp⟩ fun k hk => hk
    · exact .refused _
  | stateWrite inst =>
    refine .of_runsAlike rfl rfl ?_
    simp only [stateWriteBody, engineOf_withInsts hlen (hread inst rfl), State.withInsts_opnd]
    refine .bind fun e he => ?_
    split
    · exact .engine _ rfl (engineOf_ok.1 he).1
    · exact .refused _
  | query inst =>
    refine .of_runsAlike rfl rfl ?_
    simp only [queryBody, engineOf_withInsts hlen (hread inst rfl)]
    exact .bind fun e _ => .result _ ⟨inst, by simp⟩ fun k hk => hk

end

end Sys2Proof.Machine
end

section
/-!
SUPPORT. The isolation of the instances (10_state.md R41), from the rules that run alike; and the registers no command
but a few writes.
-/

namespace Sys2Proof.Machine

/-- What R41 says of two runs of command `i`, from `s` and from `s'`: the same end, up to the instances; the same
contents of a target written; and every other instance as it was in its own run. -/
def Isolated (i : Instr) (s s' : State) (o o' : Host.Outcome State Fault Refusal) : Prop :=
  ∀ t, o = .next t → ∃ t', o' = .next t' ∧ t' = { t with insts := t'.insts } ∧
    (∀ k, targetOf i = some k → t.err = 0 → t'.inst k = t.inst k) ∧
    (∀ k, targetOf i ≠ some k ∨ t.err ≠ 0 → t.inst k = s.inst k ∧ t'.inst k = s'.inst k)

section
variable {i : Instr} {s : State} {others : List Inst}

/-- An engine put into the target of a command: the two states then agree there, and each keeps its other instances. -/
theorem setEngine_isolated {j : BitVec 4} (hlen : others.length = s.ninst) (hj : targetOf i = some j)
    (hlt : j.toNat < s.ninst) (e : Engine) :
    (∀ k, targetOf i = some k → ((s.withInsts others).setEngine j e).inst k = (s.setEngine j e).inst k) ∧
      ∀ k, targetOf i ≠ some k → (s.setEngine j e).inst k = s.inst k ∧
        ((s.withInsts others).setEngine j e).inst k = (s.withInsts others).inst k := by
  constructor
  · intro k hk
    obtain rfl : j = k := Option.some.inj (hj.symm.trans hk)
    have hlt' : j.toNat < (s.withInsts others).ninst := hlt.trans_eq hlen.symm
    rw [State.setEngine_inst_same hlt, State.setEngine_inst_same hlt']
  · intro k hk
    have hne : k ≠ j := fun h => hk (h ▸ hj)
    exact ⟨State.setEngine_inst_other hne e, State.setEngine_inst_other hne e⟩

/-- Rules that run alike end in isolation. -/
theorem RunsAlike.isolated {b b' : Body} (hlen : others.length = s.ninst)
    (hread : ∀ k, neededInst i = some k → (s.withInsts others).inst k = s.inst k)
    (h : RunsAlike i s (s.withInsts others) b b') :
    Isolated i s (s.withInsts others) (finish s b) (finish (s.withInsts others) b') := by
  intro t ht
  have notRefused : ∀ {k}, targetOf i ≠ some k ∨ (0 : BitVec 4) ≠ 0 → targetOf i ≠ some k :=
    fun h => h.resolve_right (absurd rfl)
  cases h with
  | refused e =>
    cases ht
    exact ⟨_, rfl, rfl, fun k _ h0 => absurd h0 (errorValue_ne_zero e), fun k _ => ⟨rfl, rfl⟩⟩
  | nothing hr | result _ _ hr =>
    cases ht
    exact ⟨_, rfl, rfl, fun k hk _ => hread k (hr k hk), fun k _ => ⟨rfl, rfl⟩⟩
  | engine e hj hlt | both e _ _ hj hlt =>
    cases ht
    obtain ⟨same, other⟩ := setEngine_isolated hlen hj hlt e
    exact ⟨_, rfl, rfl, fun k hk _ => same k hk, fun k hk => other k (notRefused hk)⟩

end

/-- A command that ends is one of two runs that end alike: its own. -/
theorem exec_endsAlike_self (i : Instr) (s : State) : EndsAlike i s s := by
  show EndsAlike i s (s.withInsts s.insts)
  exact exec_endsAlike rfl fun _ _ => rfl

/-- Only SEED_ENTROPY takes words from the entropy port (R72, R169). -/
theorem exec_draws {i : Instr} {s t : State} (hi : ∀ var k, i ≠ .seedEntropy var k) (h : exec i s = .next t) :
    t.draws = s.draws := by
  obtain ⟨n, b, b', hn, hb, -, hr⟩ := exec_endsAlike_self i s
  obtain rfl := hn hi
  obtain ⟨u, rfl, rfl⟩ | ⟨e, -, rfl⟩ := finish_eq_next (hb.symm.trans h)
  · cases hr <;> rfl
  · rfl

/-- A command that is not one of the four, or that ends in an error, leaves RES (R33). -/
theorem exec_res {i : Instr} {s t : State} (h : exec i s = .next t) (hi : t.err ≠ 0 ∨ ¬ WritesRes i) :
    t.res = s.res := by
  obtain ⟨n, b, b', -, hb, -, hr⟩ := exec_endsAlike_self i s
  obtain ⟨u, rfl, rfl⟩ | ⟨e, -, rfl⟩ := finish_eq_next (hb.symm.trans h)
  · have notWriter : ¬ WritesRes i := hi.resolve_left (absurd rfl)
    cases hr with
    | nothing | engine => rfl
    | result _ hw _ | both _ _ hw _ _ => exact absurd hw notWriter
  · rfl

/-- The statements name the four commands that write RES by what a command is not (R33). -/
theorem not_writesRes {i : Instr} (h : ∀ k, i ≠ .next k ∧ i ≠ .next32 k ∧ i ≠ .stateRead k ∧ i ≠ .query k) :
    ¬ WritesRes i := by
  rintro ⟨k, hk⟩
  obtain ⟨hnext, hnext32, hstateRead, hquery⟩ := h k
  tauto

/-- Settles O17: the command's rule is analysed once for both runs (`exec_endsAlike`); what it leaves is read off. -/
theorem instancesIsolated : Obligations.InstancesIsolated := by
  intro i s others hlen hread
  obtain ⟨n, b, b', -, hb, hb', hr⟩ := exec_endsAlike hlen hread
  have iso : Isolated i (s.takeDraws n) ((s.takeDraws n).withInsts others) (finish _ b) (finish _ b') :=
    RunsAlike.isolated hlen hread hr
  intro t ht
  exact hb' ▸ iso t (hb ▸ ht)

/-- Settles O16: the four commands are the only ones whose effects reach RES, and an error has no effect. -/
theorem resultWriters : Obligations.ResultWriters := by
  refine ⟨fun i s t h hi => exec_res h (hi.imp_right not_writesRes), fun w e s t hd h => ?_, fun p n => rfl⟩
  simp only [runCommand, hd] at h
  cases h
  rfl

/-- Settles O18: every field but RES, STATUS, the entropy count and the instances stays (`exec_frame`). -/
theorem commandFrame : Obligations.CommandFrame := by
  intro i s t h
  have frame := exec_frame h
  have hmem : t.mem = s.mem := by rw [frame]
  have hbusy : t.busy = false := by
    rw [frame]
    rfl
  exact ⟨fun a => by rw [hmem], hmem, by rw [frame], by rw [frame], by rw [frame], by rw [frame], exec_ninst h,
    hbusy, fun hi => exec_draws hi h, fun k hk => exec_inst_other h hk,
    fun hi => exec_res h (.inr (not_writesRes hi))⟩

/-- Settles O15: by what a command leaves in STATUS, and, for a step, by the cases of a step. -/
theorem sticky : Obligations.Sticky := by
  constructor
  · intro w s t h
    obtain ⟨he, hs⟩ | ⟨e, he, hs⟩ := runCommand_status h
    · simp [he, hs]
    · simp only [he, hs, ne_eq, errorValue_ne_zero, not_false_iff, decide_true, Bool.or_true]
  · intro s t h hs ht
    obtain rfl | ⟨e, rest, hinbox, served⟩ | ⟨w, hw⟩ := step_cases h
    · simp [hs] at ht
    · obtain hk | hreset := served.sticky
      · simp [hk, hs] at ht
      · exact ⟨e, rest, hinbox, hreset⟩
    · obtain ⟨-, hk⟩ | ⟨e, -, hk⟩ := runCommand_status hw
      · simp [hk, hs] at ht
      · simp [hk] at ht

end Sys2Proof.Machine
end

section
/-!
SUPPORT. The STATUS register bit by bit (10_state.md R34).
-/

namespace Sys2Proof.Machine

/-- Bit i of the VALID field is I[i].VALID, 0 beyond the last instance (R34). -/
theorem testBit_validBits (insts : List Inst) (i : Nat) :
    (validBits insts).testBit i = ((insts[i]?).map Inst.valid).getD false := by
  induction insts generalizing i with
  | nil => simp [validBits]
  | cons x xs ih =>
    have hcons : validBits (x :: xs) = Nat.bit x.valid (validBits xs) := by
      simp [validBits, Nat.bit_val]
      omega
    cases i with
    | zero => simp [hcons]
    | succ i => simp [hcons, Nat.testBit_bit_succ, ih]

/-- The VALID field depends on the VALID bits alone. -/
theorem validBits_eq_foldr (insts : List Inst) :
    validBits insts = (insts.map Inst.valid).foldr (fun v acc => v.toNat + 2 * acc) 0 := by
  simp [validBits, List.foldr_map]

/-- Fields put side by side, as a number. -/
theorem toNat_append_eq_add {n m : Nat} (x : BitVec n) (y : BitVec m) :
    (x ++ y).toNat = x.toNat * 2 ^ m + y.toNat := by
  rw [BitVec.toNat_append, ← Nat.shiftLeft_add_eq_or_of_lt y.isLt, Nat.shiftLeft_eq]

/-- STATUS as a number: the sum of its fields at their places (R34). -/
theorem statusWord_toNat (s : State) :
    (statusWord s).toNat = s.err.toNat + 16 * s.busy.toNat + 32 * s.sticky.toNat + 256 * (s.ninst % 32) +
      65536 * (validBits s.insts % 65536) := by
  simp only [statusWord, toNat_append_eq_add, BitVec.ofNat_eq_ofNat, BitVec.toNat_ofNat, BitVec.toNat_ofBool]
  omega

/-- A field of a word, by the word's number. -/
theorem extractLsb'_eq_of_toNat {n start len : Nat} {x : BitVec n} {v : BitVec len}
    (h : x.toNat / 2 ^ start % 2 ^ len = v.toNat) : x.extractLsb' start len = v :=
  BitVec.eq_of_toNat_eq (by rw [BitVec.extractLsb'_toNat, Nat.shiftRight_eq_div_pow, h])

/-- A field that reads 0, by the word's number. -/
theorem extractLsb'_eq_zero_of_toNat {n start len : Nat} {x : BitVec n} (h : x.toNat / 2 ^ start % 2 ^ len = 0) :
    x.extractLsb' start len = 0#len := extractLsb'_eq_of_toNat (by simpa using h)

/-- A bit of a word, by the word's number. -/
theorem getLsbD_eq_of_toNat {n k : Nat} {x : BitVec n} {b : Bool} (h : x.toNat / 2 ^ k % 2 = b.toNat) :
    x.getLsbD k = b := by
  rw [BitVec.getLsbD, Nat.testBit_eq_decide_div_mod_eq, h]
  cases b <;> rfl

/-- ERR, BUSY, STICKY, NINST and the reserved bits of STATUS (R34). -/
theorem statusWord_fields {s : State} (hn : s.ninst ≤ 16) :
    (statusWord s).extractLsb' 0 4 = s.err ∧ (statusWord s).getLsbD 4 = s.busy ∧
      (statusWord s).getLsbD 5 = s.sticky ∧ (statusWord s).extractLsb' 6 2 = 0#2 ∧
      ((statusWord s).extractLsb' 8 5).toNat = s.ninst ∧ (statusWord s).extractLsb' 13 3 = 0#3 ∧
      (statusWord s).extractLsb' 32 32 = 0#32 := by
  have hbusy := s.busy.toNat_lt
  have hsticky := s.sticky.toNat_lt
  have hw := statusWord_toNat s
  have hninst : ((statusWord s).extractLsb' 8 5).toNat = s.ninst := by
    rw [BitVec.extractLsb'_toNat, Nat.shiftRight_eq_div_pow]
    omega
  exact ⟨extractLsb'_eq_of_toNat (by omega), getLsbD_eq_of_toNat (by omega), getLsbD_eq_of_toNat (by omega),
    extractLsb'_eq_zero_of_toNat (by omega), hninst, extractLsb'_eq_zero_of_toNat (by omega),
    extractLsb'_eq_zero_of_toNat (by omega)⟩

/-- The VALID bits of STATUS (R34). -/
theorem statusWord_valid (s : State) {i : Nat} (hi : i < 16) :
    (statusWord s).getLsbD (16 + i) = ((s.insts[i]?).map Inst.valid).getD false := by
  have hbusy := s.busy.toNat_lt
  have hsticky := s.sticky.toNat_lt
  have hw := statusWord_toNat s
  have hfield : (statusWord s).toNat >>> 16 = validBits s.insts % 2 ^ 16 := by
    rw [Nat.shiftRight_eq_div_pow]
    omega
  rw [BitVec.getLsbD, ← Nat.testBit_shiftRight, hfield, Nat.testBit_mod_two_pow, testBit_validBits]
  simp [hi]

/-- No instance is valid after reset, so VALID is 0 (R80). -/
theorem validBits_unseeded (n : Nat) : validBits (List.replicate n Inst.unseeded) = 0 := by
  induction n with
  | zero => rfl
  | succ n ih => simpa [List.replicate_succ, validBits, Inst.unseeded] using ih

@[simp] theorem resetWith_err (p : Params) (n : Nat) : (State.resetWith p n).err = 0 := rfl
@[simp] theorem resetWith_busy (p : Params) (n : Nat) : (State.resetWith p n).busy = false := rfl
@[simp] theorem resetWith_sticky (p : Params) (n : Nat) : (State.resetWith p n).sticky = false := rfl
@[simp] theorem resetWith_insts (p : Params) (n : Nat) :
    (State.resetWith p n).insts = List.replicate n Inst.unseeded := rfl
@[simp] theorem resetWith_ninst (p : Params) (n : Nat) : (State.resetWith p n).ninst = n := by
  simp [State.ninst, State.resetWith]

/-- STATUS after reset holds NINST and nothing else (R80). -/
theorem statusWord_resetWith (p : Params) {n : Nat} (hn : n ≤ 16) :
    statusWord (State.resetWith p n) = BitVec.ofNat 64 (256 * n) := by
  apply BitVec.eq_of_toNat_eq
  simp only [statusWord_toNat, resetWith_err, resetWith_busy, resetWith_sticky, resetWith_ninst, resetWith_insts,
    validBits_unseeded, BitVec.ofNat_eq_ofNat, BitVec.toNat_ofNat, Bool.toNat_false]
  omega

/-- No command shows a reserved code in ERR (R34, R481). -/
theorem runCommand_err_lt_seven {s t : State} {w : Word} (h : runCommand s w = .next t) : t.err.toNat < 7 := by
  obtain ⟨he, -⟩ | ⟨e, he, -⟩ := runCommand_status h
  · simp [he]
  · exact he ▸ errorValue_lt_seven e

/-- Settles O12: the fields from STATUS as a number, the codes from the cases of a step. -/
theorem statusLayout : Obligations.StatusLayout := by
  refine ⟨fun s hn => ?_, fun p n hn => ?_, fun s t h hs => ?_, fun s hvalid herr hsticky hbusy => ?_⟩
  · obtain ⟨herr, hbusy, hsticky, h6, hninst, h13, h32⟩ := statusWord_fields hn
    exact ⟨herr, hbusy, hsticky, h6, hninst, h13, fun i hi => statusWord_valid s hi, h32⟩
  · rw [statusWord_resetWith p hn]
    apply BitVec.eq_of_toNat_eq
    rw [BitVec.toNat_shiftLeft, BitVec.toNat_ofNat, BitVec.toNat_ofNat, Nat.shiftLeft_eq]
    omega
  · obtain rfl | ⟨e, rest, -, served⟩ | ⟨w, hw⟩ := step_cases h
    · exact hs
    · obtain he | he := served.err
      · simpa [he] using hs
      · simp [he]
    · exact runCommand_err_lt_seven hw
  · have hninst : s.ninst = 4 := by simpa [State.ninst] using congrArg List.length hvalid
    apply BitVec.eq_of_toNat_eq
    rw [statusWord_toNat, validBits_eq_foldr, hvalid, herr, hsticky, hbusy, hninst]
    rfl

end Sys2Proof.Machine
end

section
/-!
SUPPORT. The invariant of the block (`State.Inv`): it holds at reset and every step keeps it.
-/

namespace Sys2Proof.Machine

/-! ### Memory -/

/-- Every address a register write lists was listed before or is one of the register's eight. -/
theorem Memory.mem_write64 {m : Memory} {a : Nat} {v : Word} {c : Host.Cell} (h : c ∈ Memory.write64 m a v) :
    (∃ j, j < 8 ∧ c.1 = a + j) ∨ c ∈ m := by
  have fold : ∀ (js : List Nat) (m : Memory),
      c ∈ js.foldl (fun m j => Memory.writeByte m (a + j) (byteOf v j)) m → (∃ j ∈ js, c.1 = a + j) ∨ c ∈ m := by
    intro js
    induction js with
    | nil => exact fun m h => .inr h
    | cons i js ih =>
      intro m h
      obtain ⟨j, hj, hc⟩ | h := ih _ h
      · exact .inl ⟨j, List.mem_cons_of_mem _ hj, hc⟩
      · exact (Memory.mem_writeByte h).imp_left fun hc => ⟨i, List.mem_cons_self, congrArg Prod.fst hc⟩
  simpa using fold (List.range 8) m h

/-- A write of one operand register leaves which others are written (R31). -/
theorem State.opndWritten_writeOpnd_other {n k : Nat} (h : n ≠ k) (s : State) (v : Word) :
    (s.writeOpnd k v).opndWritten n = s.opndWritten n := by
  have same : ∀ j, j < 8 → Memory.readByte (s.writeOpnd k v).mem (opndOffset n + j) =
      Memory.readByte s.mem (opndOffset n + j) := by
    intro j hj
    rw [State.writeOpnd_mem, Memory.readByte_write64, if_neg]
    simp only [opndOffset]
    omega
  rw [Bool.eq_iff_iff]
  simp +contextual only [State.opndWritten, List.all_eq_true, List.mem_range, same]

/-- A register written with eight bytes in OPND keeps the memory canonical and inside OPND (R91, R92). -/
theorem State.memOk_writeOpnd {s : State} (hs : s.memOk = true) {k : Nat} (hk : k < Config.opndDepth) (v : Word) :
    (s.writeOpnd k v).memOk = true := by
  simp only [State.memOk, Bool.and_eq_true, List.all_eq_true, decide_eq_true_eq] at hs ⊢
  refine ⟨Memory.wf_write64 hs.1 _ _, fun c hc => ?_⟩
  obtain ⟨j, hj, hcj⟩ | hc := Memory.mem_write64 hc
  · simp only [Config.opndDepth] at hk
    simp only [hcj, opndOffset]
    omega
  · exact hs.2 c hc

/-- A register is whole: all of its bytes are stored or none is. -/
theorem State.untorn_iff {s : State} : s.untorn = true ↔ ∀ k, k < Config.opndDepth → ∀ j, j < 8 →
    s.opndWritten k = (Memory.readByte s.mem (opndOffset k + j)).isSome := by
  simp [State.untorn]

/-- The memory's form is the memory's alone. -/
theorem State.memOk_congr {s t : State} (h : t.mem = s.mem) : t.memOk = s.memOk := by
  simp only [State.memOk, h]

/-- Which registers are whole is the memory's alone. -/
theorem State.untorn_congr {s t : State} (h : t.mem = s.mem) : t.untorn = s.untorn := by
  simp only [State.untorn, State.opndWritten, h]

/-- The host's write stores all eight bytes of its register and none of another (R92, R99). -/
theorem State.untorn_writeOpnd {s : State} (hs : s.untorn = true) (k : Nat) (v : Word) :
    (s.writeOpnd k v).untorn = true := by
  rw [State.untorn_iff] at hs ⊢
  intro n hn j hj
  by_cases hnk : n = k
  · subst hnk
    rw [State.opndWritten_writeOpnd_same, State.writeOpnd_mem, Memory.readByte_write64, if_pos (by omega)]
    rfl
  · rw [State.opndWritten_writeOpnd_other hnk, hs n hn j hj, State.writeOpnd_mem, Memory.readByte_write64, if_neg]
    simp only [opndOffset]
    omega

/-! ### The steps -/

/-- The invariant after reset, for every block R8 allows (R80). -/
theorem resetWith_inv {p : Params} {n : Nat} (h1 : 1 ≤ n) (h16 : n ≤ Config.maxInsts)
    (hp : p.blockBase % Config.windowSize = 0) : (State.resetWith p n).Inv := by
  have hinsts : (State.resetWith p n).instsOk = true := by simp [State.instsOk, h1, h16]
  exact ⟨rfl, State.untorn_iff.2 fun k _ j _ => rfl, rfl, rfl, hinsts, decide_eq_true hp⟩

/-- A command word keeps the memory, the number of instances and the wired parameters (R8, R31). -/
theorem runCommand_frame {s t : State} {w : Word} (h : runCommand s w = .next t) :
    t.mem = s.mem ∧ t.ninst = s.ninst ∧ t.params = s.params := by
  obtain ⟨i, -, hi⟩ | rfl := runCommand_cases h
  · have frame := exec_frame hi
    exact ⟨by rw [frame], exec_ninst hi, by rw [frame]⟩
  · exact ⟨rfl, rfl, rfl⟩

/-- What a command word leaves in ERR is a code the block writes, and an error there has set STICKY (R37, R481). -/
theorem runCommand_statusOk {s t : State} {w : Word} (h : runCommand s w = .next t) :
    t.errOk = true ∧ t.stickyOk = true := by
  obtain ⟨he, -⟩ | ⟨e, he, hk⟩ := runCommand_status h
  · simp [State.errOk, State.stickyOk, he]
  · have hcode : errorValue e ∈ ([0, 1, 2, 4, 5, 6] : List (BitVec 4)) := by cases e <;> decide
    exact ⟨decide_eq_true (he ▸ hcode), by simp [State.stickyOk, hk]⟩

/-- A command keeps the invariant: it stores nothing, and it writes ERR and STICKY together (R31, R37). -/
theorem runCommand_inv {s t : State} {w : Word} (hs : s.Inv) (h : runCommand s w = .next t) : t.Inv := by
  obtain ⟨hmem, huntorn, -, -, hinsts, hbase⟩ := hs
  obtain ⟨tmem, tninst, tparams⟩ := runCommand_frame h
  obtain ⟨terr, tsticky⟩ := runCommand_statusOk h
  exact ⟨(State.memOk_congr tmem).trans hmem, (State.untorn_congr tmem).trans huntorn, terr, tsticky,
    by rwa [State.instsOk, tninst], by rwa [State.baseOk, tparams]⟩

/-- Serving the host keeps the invariant. -/
theorem Served.inv {s t : State} {a : HostAct} (h : Served s a t) (hs : s.Inv) : t.Inv := by
  obtain ⟨hmem, huntorn, herr, hsticky, hinsts, hbase⟩ := hs
  cases h with
  | answered | ignored | accepted => exact ⟨hmem, huntorn, herr, hsticky, hinsts, hbase⟩
  | stored hk =>
    exact ⟨State.memOk_writeOpnd hmem hk _, State.untorn_writeOpnd huntorn _ _, herr, hsticky, hinsts, hbase⟩
  | reset =>
    simp only [State.instsOk, Bool.and_eq_true, decide_eq_true_eq] at hinsts
    exact resetWith_inv hinsts.1 hinsts.2 (of_decide_eq_true hbase)

/-- Settles O59: R80 with NINST = 4 and BLOCK_BASE = 0. -/
theorem invariantAtReset : Obligations.InvariantAtReset := resetWith_inv (by decide) (by decide) rfl

/-- Settles O60: by the cases of a step. -/
theorem stepKeepsInvariant : Obligations.StepKeepsInvariant := by
  intro s t hs h
  obtain rfl | ⟨e, rest, -, served⟩ | ⟨w, hw⟩ := step_cases h
  · exact hs
  · exact served.inv hs
  · exact runCommand_inv hs hw

end Sys2Proof.Machine
end

section
/-!
SUPPORT. The block after reset (10_state.md R80), and the state vectors (R64).
-/

namespace Sys2Proof.Machine

/-- A command whose instances exist but whose source is unseeded is refused with Unseeded (R485, check 7a of R490). -/
theorem exec_unseeded {i : Instr} {s : State} {k : BitVec 4} (hi : neededInst i = some k)
    (hwf : i.wellFormed s.ninst = true) (hk : (s.inst k).valid = false) : exec i s = .next (s.refuse .unseeded) := by
  have engine : k.toNat < s.ninst → engineOf s k = .error .unseeded := fun h => engineOf_error.2 (.inr ⟨h, hk, rfl⟩)
  cases i with
  | nop | seed _ _ _ _ _ | seedBytes _ _ _ _ _ | seedKey _ _ _ _ | seedEntropy _ _ => cases hi
  | clone inst dst =>
    cases hi
    simp only [Instr.wellFormed, instInRange, Bool.and_eq_true, decide_eq_true_eq] at hwf
    simp [exec, execClone, cloneBody, checkInst_pass hwf.1, checkInst_pass hwf.2, seededEngine_error.2 ⟨hk, rfl⟩]
  | next inst | next32 inst | jump inst | longJump inst | advance inst | stateRead inst | stateWrite inst
  | query inst =>
    cases hi
    simp [exec, execNext, execNext32, execJump, execLongJump, execAdvance, execStateRead, execStateWrite, execQuery,
      nextBody, next32Body, jumpBody, longJumpBody, advanceBody, stateReadBody, stateWriteBody, queryBody,
      engine (of_decide_eq_true hwf)]

/-- No instance is seeded after reset, whatever its number (R80). -/
theorem resetWith_inst (p : Params) (n : Nat) (i : BitVec 4) : (State.resetWith p n).inst i = Inst.unseeded := by
  simp only [State.inst, resetWith_insts, List.getD_eq_getElem?_getD, List.getElem?_replicate]
  split <;> rfl

/-- Settles O11: R80 field by field; an unseeded instance is refused by every command that would read it. -/
theorem resetValues : Obligations.ResetValues := by
  intro p n hn
  refine ⟨fun _ => rfl, fun _ => rfl, rfl, rfl, rfl, rfl, resetWith_ninst p n, statusWord_resetWith p hn,
    fun i => congrArg Inst.valid (resetWith_inst p n i), rfl, fun c k hc hwf => ?_, rfl⟩
  exact exec_unseeded hc (by rwa [resetWith_ninst]) (congrArg Inst.valid (resetWith_inst p n k))

/-- The state vector of a variant has NSV words (R50). -/
theorem stateVector_length (e : Engine) : (stateVector e).length = stateWords (engineVariant e) := by
  cases e <;> simp [stateVector, stateWords, engineVariant]

/-- The words of an array followed by one more word: those of the array, in order. -/
theorem words_getElem? {n : Nat} (v : Vector Word n) (x : Word) (j : Fin n) :
    (v.toList ++ [x])[j.val]? = some v[j] := by
  rw [List.getElem?_append_left (by simp)]
  simp

/-- The words of an array followed by one more word: the word that follows. -/
theorem words_last {n : Nat} (v : Vector Word n) (x : Word) : (v.toList ++ [x])[n]? = some x := by
  simp

/-- Settles O55: the vectors word by word, an array's words before the index or carry that follows it. -/
theorem stateVectorLayout : Obligations.StateVectorLayout := by
  refine ⟨stateVector_length, fun x => rfl, ?_, ?_, ?_, ?_, fun _ _ => rfl, ?_, ?_, ?_, ?_⟩
  · intro v j
    simp [stateVector]
  · intro v j
    simp [stateVector]
  · intro v j
    simp [stateVector]
  · intro v p sv hsv
    obtain rfl : sv = v.toList ++ [p.setWidth 64] := by simpa [stateVector] using hsv
    exact ⟨fun j => words_getElem? v _ j, BitVec.ofNat_toNat 64 p ▸ words_last v _⟩
  · intro st inc
    simp only [stateVector, BitVec.setWidth_ushiftRight_eq_extractLsb]
    rfl
  · intro m
    have hsv : stateVector (.mt19937 m) =
        (m.mt.map fun x => x.setWidth 64).toList ++ [BitVec.ofNat 64 m.mti.val] := by
      rw [Vector.toList_map]
      rfl
    rw [hsv]
    refine ⟨fun j => ?_, words_last _ _⟩
    rw [words_getElem?, Fin.getElem_fin, Vector.getElem_map, BitVec.setWidth_eq_append (by decide)]
    rfl
  · exact fun m => ⟨words_getElem? m.mt _, words_last m.mt _⟩
  · exact fun a b c d => ⟨rfl, rfl, rfl, rfl, rfl, rfl⟩

end Sys2Proof.Machine
end

section
/-!
SUPPORT. The register window access by access (20_memory.md R90 to R102): the register an access reaches, what a step
makes of it, and what the BUSY protocol lets through.
-/

namespace Sys2Proof.Machine

/-! ### The register an access reaches -/

/-- The register map with the end of OPND as the offset R91 prints. -/
theorem windowReg_eq (off : Nat) : windowReg off =
    if off = 0 then .cmd else if off = 0x8 then .status else if off = 0x10 then .res
    else if 0x1000 ≤ off ∧ off < 0x3000 then .opnd ((off - 0x1000) / 8) else .reserved := rfl

/-- The operand registers' row of the map (R91). -/
theorem windowReg_of_opnd {off : Nat} (h : 0x1000 ≤ off ∧ off < 0x3000) :
    windowReg off = .opnd ((off - 0x1000) / 8) := by
  rw [windowReg_eq, if_neg (by omega), if_neg (by omega), if_neg (by omega), if_pos h]

/-- OPND[k] is at its own offset (R91). -/
theorem windowReg_opndOffset {k : Nat} (h : k < 1024) : windowReg (opndOffset k) = .opnd k := by
  unfold opndOffset
  rw [windowReg_of_opnd (by omega), Nat.add_sub_cancel_left, Nat.mul_div_cancel_left _ (by decide)]

/-- STATUS is at offset 8 alone (R91). -/
theorem windowReg_eq_status {off : Nat} : windowReg off = .status ↔ off = 8 := by
  rw [windowReg_eq]
  repeat' split
  all_goals simp
  all_goals omega

/-- What a read outside the operand registers answers (R91, R93, R94). -/
theorem regValue_windowReg (s : State) {off : Nat} (h : ¬ (0x1000 ≤ off ∧ off < 0x3000)) :
    regValue s (windowReg off) = if off = 0x8 then statusWord s else if off = 0x10 then s.res else 0 := by
  rw [windowReg_eq, if_neg h]
  by_cases h0 : off = 0
  · subst h0
    rfl
  · rw [if_neg h0]
    repeat' split
    all_goals rfl

/-- A write outside CMD and the operand registers is ignored (R91, R93, R94). -/
theorem regWrite_windowReg (s : State) (v : Word) {off : Nat} (h0 : off ≠ 0) (h : ¬ (0x1000 ≤ off ∧ off < 0x3000)) :
    regWrite s v (windowReg off) = s := by
  rw [windowReg_eq, if_neg h0, if_neg h]
  repeat' split
  all_goals rfl

/-- An address of the window lies at its distance from BLOCK_BASE (R90). -/
theorem windowOffset_blockBase (p : Params) {off : Nat} (h : off < Config.windowSize) :
    windowOffset p (p.blockBase + off) = some off := by
  rw [windowOffset, if_pos (by omega), Nat.add_sub_cancel_left]

/-- The only address at a window offset is that distance from BLOCK_BASE (R90). -/
theorem eq_of_windowOffset {p : Params} {addr off : Nat} (h : windowOffset p addr = some off) :
    addr = p.blockBase + off := by
  unfold windowOffset at h
  split at h
  · cases h
    omega
  · cases h

/-- A whole aligned access in the window reaches the register the map names (R91, R92). -/
theorem accessReg_aligned (s : State) {off : Nat} (h : off < Config.windowSize) (ha : off % 8 = 0) :
    accessReg s (s.params.blockBase + off) 8 = .ok (windowReg off) := by
  simp only [accessReg, windowOffset_blockBase s.params h, ha, and_self, if_true]

/-- Any other access in the window is a bus error (R92). -/
theorem accessReg_misaligned (s : State) {off width : Nat} (h : off < Config.windowSize)
    (ha : ¬ (width = 8 ∧ off % 8 = 0)) :
    accessReg s (s.params.blockBase + off) width = .error (.busError off width) := by
  simp only [accessReg, windowOffset_blockBase s.params h, ha, if_false]

/-- An access that reaches STATUS is the whole aligned one at its offset (R91, R92). -/
theorem accessReg_eq_status {s : State} {addr width : Nat} :
    accessReg s addr width = .ok .status ↔ addr = s.params.blockBase + 8 ∧ width = 8 := by
  constructor
  · intro h
    unfold accessReg at h
    split at h
    · cases h
    · rename_i off hoff
      split at h
      · rename_i hw
        obtain rfl := windowReg_eq_status.1 (Except.ok.inj h)
        exact ⟨eq_of_windowOffset hoff, hw.1⟩
      · cases h
  · rintro ⟨rfl, rfl⟩
    exact accessReg_aligned s (by decide) rfl

/-! ### What a step makes of the first event -/

/-- A whole aligned read in the window is answered with the register's value (R91). -/
theorem serve_read_aligned (s : State) {off : Nat} (h : off < Config.windowSize) (ha : off % 8 = 0) :
    serve s (.read (s.params.blockBase + off) 8) = .next (s.reply (regValue s (windowReg off))) := by
  simp only [serve, hostRead, accessReg_aligned s h ha]

/-- A whole aligned write in the window does what the map says of its register (R91). -/
theorem serve_write_aligned (s : State) {off : Nat} (h : off < Config.windowSize) (ha : off % 8 = 0) (v : Word) :
    serve s (.write (s.params.blockBase + off) 8 v) = .next (regWrite s v (windowReg off)) := by
  simp only [serve, hostWrite, accessReg_aligned s h ha]

section
variable {s : State} {w : Word} {e : HostEvent} {rest : List HostEvent}

/-- With BUSY = 0 the step serves the first event (R101). -/
theorem step_idle (hs : s.running = none) (hi : s.inbox = e :: rest) :
    step s = serve { s with inbox := rest } e.act := by
  simp only [step, hs, hi]

/-- With BUSY = 1 an event that lands is served (R102, R520). -/
theorem step_landing (hs : s.running = some w) (hi : s.inbox = e :: rest) (he : landsWhileBusy s e = true) :
    step s = serve { s with inbox := rest } e.act := by
  simp only [step, hs, hi, he, if_true]

/-- With BUSY = 1 an event that does not land is held, and the step is the command's (R102). -/
theorem step_held (hs : s.running = some w) (hi : s.inbox = e :: rest) (he : landsWhileBusy s e = false) :
    step s = runCommand s w := by
  simp [step, hs, hi, he]

/-- A STATUS read that arrives while BUSY = 1 lands (R102). -/
theorem landsWhileBusy_statusRead (s : State) : landsWhileBusy s ⟨true, .read (s.params.blockBase + 8) 8⟩ = true := by
  simp [landsWhileBusy, isStatusRead, accessReg_eq_status]

/-- Nothing lands while BUSY = 1 but a read of STATUS and the reset input (R102, R520). -/
theorem landsWhileBusy_eq_false (hread : e.act ≠ .read (s.params.blockBase + 8) 8) (hreset : e.act ≠ .reset) :
    landsWhileBusy s e = false := by
  have notStatus : isStatusRead s e.act = false := by
    cases ha : e.act with
    | read addr width =>
      refine decide_eq_false fun h => hread ?_
      obtain ⟨rfl, rfl⟩ := accessReg_eq_status.1 h
      exact ha
    | write | reset => rfl
  simp [landsWhileBusy, notStatus, hreset]

end

/-- A command word ends with BUSY = 0 and takes no event of the host (R38, R102). -/
theorem runCommand_inbox {s t : State} {w : Word} (h : runCommand s w = .next t) :
    t.inbox = s.inbox ∧ t.busy = false := by
  obtain ⟨i, -, hi⟩ | rfl := runCommand_cases h
  · rw [exec_frame hi]
    exact ⟨rfl, rfl⟩
  · exact ⟨rfl, rfl⟩

/-! ### STATUS while a command executes -/

/-- BUSY is bit 4 of STATUS, whatever NINST is (R34). -/
theorem statusWord_busy (s : State) : (statusWord s).getLsbD 4 = s.busy := by
  have hbusy := s.busy.toNat_lt
  have hw := statusWord_toNat s
  exact getLsbD_eq_of_toNat (by omega)

/-- Or-ing a one into the flag between two fields sets the flag alone. -/
theorem append_ofBool_append_or {n m : Nat} (hi : BitVec n) (b : Bool) (lo : BitVec m) :
    (hi ++ BitVec.ofBool b ++ lo) ||| (0#n ++ BitVec.ofBool true ++ 0#m) = hi ++ BitVec.ofBool true ++ lo := by
  rw [BitVec.or_append, BitVec.or_append, BitVec.or_zero, BitVec.or_zero]
  cases b <;> rfl

/-- STATUS sees of the command in execution the BUSY bit alone (R34, R38). -/
theorem statusWord_running {s : State} (hs : s.busy = true) (v : Option Word) :
    statusWord { s with running := v } ||| 0x10 = statusWord s := by
  simp only [statusWord, hs]
  exact append_ofBool_append_or _ _ _

/-! ### The statements -/

/-- Settles O6: by which events land while BUSY = 1. -/
theorem busyProtocol : Obligations.BusyProtocol := by
  refine ⟨fun s w rest hs hi => ?_, fun s w e rest hs hi hread hreset => ?_, fun s e rest => step_idle⟩
  · have hbusy : s.busy = true := by simp [State.busy, hs]
    refine ⟨?_, (statusWord_busy s).trans hbusy, statusWord_running hbusy⟩
    rw [step_landing hs hi (landsWhileBusy_statusRead s)]
    exact serve_read_aligned { s with inbox := rest } (by decide) rfl
  · have held := step_held hs hi (landsWhileBusy_eq_false hread hreset)
    refine ⟨held, fun t ht => ?_⟩
    exact hi ▸ runCommand_inbox (held.symm.trans ht)

/-- Settles O7: the step serves the access, and the rows of the map say what that does. -/
theorem registerMap : Obligations.RegisterMap := by
  intro s off early v rest hs ha h
  constructor
  · intro hi
    have answered : step s = .next (State.reply { s with inbox := rest } (regValue s (windowReg off))) :=
      (step_idle hs hi).trans (serve_read_aligned { s with inbox := rest } h ha)
    rw [answered]
    split
    · rw [windowReg_of_opnd ‹_›]
      rfl
    · rw [regValue_windowReg s ‹_›]
      rfl
  · intro hi
    have served : step s = .next (regWrite { s with inbox := rest } v (windowReg off)) :=
      (step_idle hs hi).trans (serve_write_aligned { s with inbox := rest } h ha v)
    rw [served]
    split
    · subst off
      rfl
    split
    · rename_i hopnd
      have hoff : opndOffset ((off - 0x1000) / 8) = off := by
        unfold opndOffset
        omega
      rw [windowReg_of_opnd hopnd]
      refine ⟨_, rfl, State.opnd_writeOpnd_same s _ v, State.opndWritten_writeOpnd_same s _ v, fun a hout => ?_⟩
      rw [hoff, Memory.readByte_write64, if_neg hout]
    · rw [regWrite_windowReg _ v ‹_› ‹_›]

/-- Settles O8: a register is the word of its eight bytes, and a host's write stores the bytes of its word. -/
theorem littleEndian : Obligations.LittleEndian := by
  intro s k v
  refine ⟨⟨fun h j hj => ?_, fun h => ?_⟩, fun early rest hs hk hi => ?_⟩
  · exact h ▸ (State.byteOf_opnd s k hj).symm
  · rw [← State.opnd_writeOpnd_same s k v]
    refine State.opnd_congr fun j hj => ?_
    rw [State.byteAt_writeOpnd, if_pos (by omega), Nat.add_sub_cancel_left]
    exact h j hj
  · rw [Nat.add_assoc] at hi
    have stored : step s = .next (State.writeOpnd { s with inbox := rest } k v) := by
      have served := serve_write_aligned { s with inbox := rest } (off := opndOffset k)
        (by simp only [opndOffset, Config.windowSize]; omega) (by simp only [opndOffset]; omega) v
      rw [windowReg_opndOffset hk] at served
      exact (step_idle hs hi).trans served
    refine ⟨_, stored, fun j hj => ?_⟩
    rw [State.writeOpnd_mem, ← opndOffset, Memory.readByte_write64, if_pos (by omega), Nat.add_sub_cancel_left]
    rfl

/-- Settles O9: the access reaches no register, for a read and for a write. -/
theorem busError : Obligations.BusError := by
  intro s off width early v rest hs h ha hi
  have noReg : accessReg { s with inbox := rest } (s.params.blockBase + off) width = .error (.busError off width) :=
    accessReg_misaligned { s with inbox := rest } h ha
  obtain hi | hi := hi
  · simp only [step_idle hs hi, serve, hostRead, noReg]
  · simp only [step_idle hs hi, serve, hostWrite, noReg]

end Sys2Proof.Machine
end

section
/-!
SUPPORT. SEED_BYTES (20_memory.md R97, 40_commands.md R164 to R167): the elements the operand bytes are assembled into,
and the common seeding path once its checks pass.
-/

namespace Sys2Proof.Machine

/-! ### The bytes -/

/-- Seed byte i, as the rule of SEED_BYTES finds it in the operands it reads and as R97 names it in the registers. -/
theorem seedByte_readOpnds (s : State) {cnt i : Nat} (h : i < cnt) :
    seedByte (readOpnds s (byteOperandCount cnt)) i = operandByte s i := by
  have hi : i / 8 < byteOperandCount cnt := by
    unfold byteOperandCount
    omega
  simp only [seedByte, operandByte, byteOf, List.getD_eq_getElem?_getD, readOpnds_getElem?, hi, if_true,
    Option.getD_some]

/-- The first `cnt` seed bytes of the operand registers (R97). -/
def operandBytes (s : State) (cnt : Nat) : List Byte := (List.range cnt).map (operandByte s)

@[simp] theorem operandBytes_length (s : State) (cnt : Nat) : (operandBytes s cnt).length = cnt := by
  simp [operandBytes]

/-- The seed bytes of SEED_BYTES are the first CNT of the operand registers (R97). -/
theorem seedBytesOf_readOpnds (s : State) (cnt : Nat) :
    seedBytesOf (readOpnds s (byteOperandCount cnt)) cnt = operandBytes s cnt :=
  List.map_congr_left fun _ h => seedByte_readOpnds s (List.mem_range.1 h)

/-- Byte m of a seed of `cnt` bytes: a byte of the operand registers, or a completing zero. -/
theorem operandBytes_getD (s : State) (cnt m : Nat) :
    (operandBytes s cnt).getD m 0 = if m < cnt then operandByte s m else 0 := by
  rw [operandBytes, List.getD_eq_getElem?_getD, List.getElem?_map]
  split <;> simp [*]

/-- Completing the last element adds nothing but zero bytes (R167). -/
theorem completeBytes_getD (b : Nat) (bytes : List Byte) (m : Nat) :
    (completeBytes b bytes).getD m 0 = bytes.getD m 0 := by
  unfold completeBytes
  split
  · rfl
  · simp only [List.getD_eq_getElem?_getD, List.getElem?_append, List.getElem?_replicate]
    split
    · rfl
    · rw [List.getElem?_eq_none (by omega)]
      split <;> rfl

/-- The completed bytes make as many elements as the bytes do, rounded up (R167). -/
theorem completeBytes_length_div {b : Nat} (hb : 0 < b) (bytes : List Byte) :
    (completeBytes b bytes).length / b = (bytes.length + (b - 1)) / b := by
  have hlt := Nat.mod_lt bytes.length hb
  have hpred : b - 1 < b := by omega
  rw [Nat.add_div hb, Nat.div_eq_of_lt hpred, Nat.mod_eq_of_lt hpred]
  unfold completeBytes
  split
  · rw [if_neg (by omega)]
    rfl
  · have hfill : b - bytes.length % b < b := by omega
    rw [List.length_append, List.length_replicate, Nat.add_div hb, Nat.div_eq_of_lt hfill, Nat.mod_eq_of_lt hfill,
      if_pos (by omega), if_pos (by omega)]

/-! ### The elements -/

/-- The elements of the completed bytes, read off the bytes given (R167). -/
theorem byteElements_completeBytes {b : Nat} (hb : 0 < b) (bytes : List Byte) :
    byteElements b (completeBytes b bytes) =
      (List.range ((bytes.length + (b - 1)) / b)).map (byteElement b bytes) := by
  have same : byteElement b (completeBytes b bytes) = byteElement b bytes := by
    funext j
    simp only [byteElement, completeBytes_getD]
  rw [byteElements, completeBytes_length_div hb, same]

/-- A number of b bytes is below 2^(8b) (R97). -/
theorem sum_bytes_lt (f : Nat → Byte) (b : Nat) :
    ((List.range b).map fun x => (f x).toNat * 2 ^ (8 * x)).sum < 2 ^ (8 * b) := by
  induction b with
  | zero => simp
  | succ b ih =>
    have hbyte : (f b).toNat ≤ 255 := Nat.le_of_lt_succ (f b).isLt
    have htop := Nat.mul_le_mul_right (2 ^ (8 * b)) hbyte
    rw [List.range_succ, List.map_append, List.sum_append, Nat.mul_succ, Nat.pow_add]
    simp only [List.map_cons, List.map_nil, List.sum_cons, List.sum_nil]
    omega

/-- An element is 0 exactly when its bytes are (R97). -/
theorem byteElement_eq_zero_iff {b : Nat} (hb : b ≤ 8) (bytes : List Byte) (j : Nat) :
    byteElement b bytes j = 0 ↔ ∀ x, x < b → bytes.getD (j * b + x) 0 = 0 := by
  have hlt := sum_bytes_lt (fun x => bytes.getD (j * b + x) 0) b
  have hle : 2 ^ (8 * b) ≤ 2 ^ 64 := Nat.pow_le_pow_right (by decide) (by omega)
  rw [byteElement, ← BitVec.toNat_inj, BitVec.toNat_ofNat, Nat.mod_eq_of_lt (hlt.trans_le hle)]
  simp [List.sum_eq_zero_iff_forall_eq_nat, ← BitVec.toNat_inj]

/-- A run of elements is all zero exactly when the bytes they are made of are (R164). -/
theorem allZero_byteElement_iff {b : Nat} (hb0 : 0 < b) (hb8 : b ≤ 8) (bytes : List Byte) (k : Nat) :
    allZero ((List.range k).map (byteElement b bytes)) = true ↔ ∀ m, m < k * b → bytes.getD m 0 = 0 := by
  simp only [allZero, List.all_map, List.all_eq_true, List.mem_range, Function.comp_apply, decide_eq_true_eq,
    byteElement_eq_zero_iff hb8]
  constructor
  · intro h m hm
    have hbyte := h (m / b) (Nat.div_lt_of_lt_mul (Nat.mul_comm k b ▸ hm)) (m % b) (Nat.mod_lt m hb0)
    rwa [Nat.mul_comm, Nat.div_add_mod] at hbyte
  · intro h j hj x hx
    refine h _ ?_
    calc j * b + x < (j + 1) * b := by rw [Nat.succ_mul]; omega
      _ ≤ k * b := Nat.mul_le_mul_right b hj

/-- An element of the operand bytes, as a sum over the registers' bytes (R97). -/
theorem byteElement_operandBytes (s : State) (b cnt j : Nat) : byteElement b (operandBytes s cnt) j =
    BitVec.ofNat 64 ((List.range b).map fun x =>
      (if j * b + x < cnt then (operandByte s (j * b + x)).toNat else 0) * 2 ^ (8 * x)).sum := by
  have byte : ∀ m, ((operandBytes s cnt).getD m 0).toNat = if m < cnt then (operandByte s m).toNat else 0 := by
    intro m
    rw [operandBytes_getD, apply_ite BitVec.toNat]
    rfl
  simp only [byteElement, byte]

/-- The bytes of an element (R167). -/
theorem elementWidth_div (v : Variant) : elementWidth v / 8 = if v = .mt19937 then 4 else 8 := by
  unfold elementWidth
  split <;> rfl

theorem elementWidth_div_bounds (v : Variant) : 0 < elementWidth v / 8 ∧ elementWidth v / 8 ≤ 8 := by
  rw [elementWidth_div]
  split <;> decide

/-! ### The common path -/

/-- Of elements numbered from 0 the zero rule checks the first `checkedCount` (R164). -/
theorem checkedElements_range (v : Variant) (n : Nat) (f : Nat → Word) :
    checkedElements v ((List.range n).map f) = (List.range (checkedCount v n)).map f := by
  unfold checkedElements checkedCount
  split
  · rfl
  · rw [← List.map_take, List.take_range, Nat.min_comm]

/-- The zero rule of SEED_BYTES looks at the bytes of the checked elements (R164, R167). -/
theorem allZero_operandBytes_iff {s : State} {v : Variant} {b cnt : Nat} (hb0 : 0 < b) (hb8 : b ≤ 8) :
    allZero (checkedElements v (byteElements b (completeBytes b (operandBytes s cnt)))) = true ↔
      ∀ m, m < cnt → m < checkedCount v ((cnt + (b - 1)) / b) * b → operandByte s m = 0 := by
  rw [byteElements_completeBytes hb0, operandBytes_length, checkedElements_range, allZero_byteElement_iff hb0 hb8]
  refine forall_congr' fun m => ?_
  rw [operandBytes_getD]
  split <;> simp [*]

/-- A seed that passes the length rule and the zero rule makes the common path's engine (R166). -/
theorem seedCommon_pass {v : Variant} {e : List Word} {zok lok : Bool} (hlen : e.length = seedCount v ∨ lok = true)
    (hzero : allZero (checkedElements v e) = false ∨ zok = true) : seedCommon v e zok lok = .ok (seededFrom v e) := by
  have lengthRule : lengthOk v e.length lok = true := by simpa [lengthOk] using hlen
  have zeroRule : (!allZero (checkedElements v e) || zok) = true := by simpa using hzero
  simp only [seedCommon, lengthRule, zeroRule, check_true, bind_ok, pure_eq_ok]

/-- SEED_BYTES on bytes that make whole elements, or with LOK, ends as the common path does (R167). -/
theorem exec_seedBytes {s : State} {var : BitVec 6} {zok lok : Bool} {cnt : BitVec 10} {i : BitVec 4} {v : Variant}
    {b : Nat} {e : Engine} (hi : i.toNat < s.ninst) (hv : variantOfCode? var = some v) (hb : elementWidth v / 8 = b)
    (hwhole : cnt.toNat % b = 0 ∨ lok = true)
    (he : seedCommon v (byteElements b (completeBytes b (operandBytes s cnt.toNat))) zok lok = .ok e) :
    exec (.seedBytes var zok lok cnt i) s = .next (s.stepped i e) := by
  have wholeRule : (decide (cnt.toNat % b = 0) || lok) = true := by simpa using hwhole
  have hbody : seedBytesBody s var zok lok cnt i = .ok (s.setEngine i e) := by
    simp only [seedBytesBody, seedVariant_ok.2 ⟨hi, hv⟩, hb, seedBytesOf_readOpnds, wholeRule, he, check_true, bind_ok,
      pure_eq_ok]
  simp only [exec, execSeedBytes, hbody]
  rfl

/-- Settles O28: the elements of the completed bytes are those the statement sums, and a checked byte that is not 0 makes
its element pass the zero rule. -/
theorem seedBytesCompletes : Obligations.SeedBytesCompletes := by
  intro s var zok lok cnt i v hi hv b n byte elements hlen hzero
  have hb : elementWidth v / 8 = b := elementWidth_div v
  obtain ⟨hb0, hb8⟩ : 0 < b ∧ b ≤ 8 := hb ▸ elementWidth_div_bounds v
  have summed : byteElements b (completeBytes b (operandBytes s cnt.toNat)) = elements := by
    rw [byteElements_completeBytes hb0, operandBytes_length]
    exact List.map_congr_left fun j _ => byteElement_operandBytes s b cnt.toNat j
  have lengthRule : elements.length = seedCount v ∨ lok = true := by
    simpa [elements] using hlen.imp_left And.right
  have zeroRule : allZero (checkedElements v elements) = false ∨ zok = true := by
    refine hzero.imp_left ?_
    rintro ⟨m, hm, hchecked, hne⟩
    rw [← summed, ← Bool.not_eq_true, allZero_operandBytes_iff hb0 hb8]
    exact fun h => hne (h m hm hchecked)
  refine exec_seedBytes hi hv hb (hlen.imp_left And.left) ?_
  rw [summed]
  exact seedCommon_pass lengthRule zeroRule

end Sys2Proof.Machine
end

section
/-!
SUPPORT. The decoder and the encoder (30_encoding.md R120 to R123, R130): a word is its fields, the decoder's result
carries them, and so each is the other's inverse; the worked encodings of R140.
-/

namespace Sys2Proof

/-! ### A word is its fields -/

/-- Words whose fields agree, bits [63:32] included, are the same word (R120, R121). -/
theorem word_ext {w x : Word} (reserved : fieldReserved w = fieldReserved x) (op : fieldOp w = fieldOp x)
    (var : fieldVar w = fieldVar x) (zok : fieldZok w = fieldZok x) (lok : fieldLok w = fieldLok x)
    (cnt : fieldCnt w = fieldCnt x) (inst : fieldInst w = fieldInst x) (dst : fieldDst w = fieldDst x) : w = x := by
  have bit : ∀ {start len : Nat} (i : Nat), w.extractLsb' start len = x.extractLsb' start len → start ≤ i →
      i < start + len → w.getLsbD i = x.getLsbD i := by
    intro start len i h hlo hhi
    have hbit := congrArg (fun y => y.getLsbD (i - start)) h
    simpa [BitVec.getLsbD_extractLsb', show i - start < len by omega, Nat.add_sub_cancel' hlo] using hbit
  refine BitVec.eq_of_getLsbD_eq fun i hi => ?_
  obtain h | h | rfl | rfl | h | h | h | h : i < 6 ∨ (6 ≤ i ∧ i < 12) ∨ i = 12 ∨ i = 13 ∨ (14 ≤ i ∧ i < 24) ∨
      (24 ≤ i ∧ i < 28) ∨ (28 ≤ i ∧ i < 32) ∨ 32 ≤ i := by omega
  · exact bit i op (Nat.zero_le i) h
  · exact bit i var h.1 h.2
  · exact zok
  · exact lok
  · exact bit i cnt h.1 h.2
  · exact bit i inst h.1 h.2
  · exact bit i dst h.1 h.2
  · exact bit i reserved h hi

/-- A word whose bits [63:32] are 0 is put together from its fields (R120). -/
theorem commandWord_fields {w : Word} (h : fieldReserved w = 0) :
    commandWord (fieldOp w) (fieldVar w) (fieldZok w) (fieldLok w) (fieldCnt w) (fieldInst w) (fieldDst w) = w := by
  apply word_ext <;> simp [h]

/-! ### What the decoder answers -/

/-- Check 3 of R490 passes exactly when the unused fields are 0. -/
theorem ifUnusedZero_eq_ok {unusedZero : Bool} {i j : Instr} :
    ifUnusedZero unusedZero i = .ok j ↔ unusedZero = true ∧ i = j := by
  cases unusedZero <;> simp [ifUnusedZero]

theorem decode_eq_ok {w : Word} {i : Instr} : decode w = .ok i ↔ fieldReserved w = 0 ∧ decodeFields w = .ok i := by
  unfold decode
  split
  · simp [*]
  · simp_all

/-- The decoder finds the opcode as a number. -/
theorem eq_ofNat_of_toNat {n k : Nat} {x : BitVec n} (h : x.toNat = k) : x = BitVec.ofNat n k := by
  rw [← h, BitVec.ofNat_toNat, BitVec.setWidth_eq]

/-- The instruction found carries the word's opcode and used fields, and its unused fields, all 0, are the word's too
(R123). -/
theorem encode_of_decodeFields {w : Word} {i : Instr} (h : decodeFields w = .ok i) : encode i =
    commandWord (fieldOp w) (fieldVar w) (fieldZok w) (fieldLok w) (fieldCnt w) (fieldInst w) (fieldDst w) := by
  unfold decodeFields at h
  split at h
  case h_15 => cases h
  all_goals
    rename_i hop
    obtain ⟨unused, rfl⟩ := ifUnusedZero_eq_ok.1 h
    have op := eq_ofNat_of_toNat hop
    simp_all [encode, opcodeOf]

/-- Every instruction decodes from its encoding: the fields the encoder wrote are the ones the decoder finds. -/
theorem decode_encode (i : Instr) : decode (encode i) = .ok i := by
  cases i <;> simp [decode, decodeFields, encode, opcodeOf, ifUnusedZero]

/-- OP of an instruction's encoding is its opcode (R121, R130). -/
theorem fieldOp_encode (i : Instr) : fieldOp (encode i) = opcodeOf i := by
  cases i <;> simp [encode]

/-- Every instruction has exactly one encoding (R123). -/
theorem decode_eq_ok_iff_encode {w : Word} {i : Instr} : decode w = .ok i ↔ encode i = w := by
  constructor
  · intro h
    obtain ⟨reserved, fields⟩ := decode_eq_ok.1 h
    rw [encode_of_decodeFields fields, commandWord_fields reserved]
  · rintro rfl
    exact decode_encode i

/-- Settles O2: the decoder's result carries the fields of the word, and a word is its fields. -/
theorem decodeEncode : Obligations.DecodeEncode :=
  ⟨decode_encode, fun _ _ => decode_eq_ok_iff_encode.1⟩

/-- Settles O1: the encodings are computed; each word then decodes, being the one encoding of its command. -/
theorem workedEncodings : Obligations.WorkedEncodings := by
  intro p hp
  have encoded : encode p.2 = p.1 := by
    revert p
    decide
  exact ⟨decode_eq_ok_iff_encode.2 encoded, encoded⟩

end Sys2Proof
end

section
/-!
SUPPORT. The opcode table (30_encoding.md R136): match and mask field by field, and the range checks that apply to a
decoded command (R124, R133).
-/

namespace Sys2Proof.Machine

/-! ### Match and mask on the fields of a word -/

/-- Masking a word masks its fields. -/
theorem and_eq_iff_fields {w mask bits : Word} : w &&& mask = bits ↔
    fieldReserved w &&& fieldReserved mask = fieldReserved bits ∧ fieldOp w &&& fieldOp mask = fieldOp bits ∧
      fieldVar w &&& fieldVar mask = fieldVar bits ∧ (fieldZok w && fieldZok mask) = fieldZok bits ∧
      (fieldLok w && fieldLok mask) = fieldLok bits ∧ fieldCnt w &&& fieldCnt mask = fieldCnt bits ∧
      fieldInst w &&& fieldInst mask = fieldInst bits ∧ fieldDst w &&& fieldDst mask = fieldDst bits := by
  simp only [fieldReserved, fieldOp, fieldVar, fieldZok, fieldLok, fieldCnt, fieldInst, fieldDst,
    ← BitVec.extractLsb'_and, ← BitVec.getLsbD_and]
  constructor
  · rintro rfl
    simp
  · rintro ⟨reserved, op, var, zok, lok, cnt, inst, dst⟩
    exact word_ext reserved op var zok lok cnt inst dst

/-- A field under a mask of ones is the field. -/
theorem and_eq_self_of_ones {n : Nat} {m : BitVec n} (h : m = BitVec.allOnes n) (x : BitVec n) : x &&& m = x := by
  rw [h, BitVec.and_allOnes]

/-- The fields of `w` from VAR to DST are 0 wherever `mask` has ones. -/
def FieldsZeroUnder (mask w : Word) : Prop :=
  fieldVar w &&& fieldVar mask = 0 ∧ (fieldZok w && fieldZok mask) = false ∧ (fieldLok w && fieldLok mask) = false ∧
    fieldCnt w &&& fieldCnt mask = 0 ∧ fieldInst w &&& fieldInst mask = 0 ∧ fieldDst w &&& fieldDst mask = 0

/-- The table's match is OP alone, and its mask leaves out the bits of the used fields (R123, R136). -/
theorem opcodeRows_bits_mask : ∀ row ∈ opcodeRows, row.bits = row.op.setWidth 64 ∧ row.mask = ~~~ row.used := by
  decide

/-- Every row's mask keeps bits [63:32] and OP, and its match is the word with OP alone. -/
theorem opcodeRows_fields : ∀ row ∈ opcodeRows, fieldReserved row.mask = BitVec.allOnes 32 ∧
    fieldOp row.mask = BitVec.allOnes 6 ∧ row.bits = commandWord row.op 0 false false 0 0 0 := by
  decide

/-- A word matches a row exactly when bits [63:32] are 0, OP is the row's and the fields under the row's mask are 0. -/
theorem matches_row_iff {row : OpcodeRow} (hrow : row ∈ opcodeRows) {w : Word} : w &&& row.mask = row.bits ↔
    fieldReserved w = 0 ∧ fieldOp w = row.op ∧ FieldsZeroUnder row.mask w := by
  obtain ⟨reserved, op, bits⟩ := opcodeRows_fields row hrow
  simp only [and_eq_iff_fields, reserved, op, bits, BitVec.and_allOnes, fieldReserved_commandWord, fieldOp_commandWord,
    fieldVar_commandWord, fieldZok_commandWord, fieldLok_commandWord, fieldCnt_commandWord, fieldInst_commandWord,
    fieldDst_commandWord, FieldsZeroUnder]

/-! ### The decoder against the table -/

/-- A word decodes to a command of opcode `op` exactly when it passes the three checks and OP is `op`. -/
theorem exists_decode_iff {w : Word} {op : BitVec 6} : (∃ i, decode w = .ok i ∧ opcodeOf i = op) ↔
    fieldReserved w = 0 ∧ fieldOp w = op ∧ ∃ i, decodeFields w = .ok i := by
  have opcode : ∀ {i}, decode w = .ok i → fieldOp w = opcodeOf i := fun h => by
    rw [← decode_eq_ok_iff_encode.1 h, fieldOp_encode]
  constructor
  · rintro ⟨i, hi, rfl⟩
    obtain ⟨reserved, fields⟩ := decode_eq_ok.1 hi
    exact ⟨reserved, opcode hi, i, fields⟩
  · rintro ⟨reserved, rfl, i, fields⟩
    have hi := decode_eq_ok.2 ⟨reserved, fields⟩
    exact ⟨i, hi, (opcode hi).symm⟩

/-- On a row's opcode the decoder passes exactly the words whose fields under the row's mask are 0 (R123): row by row,
the fields whose being 0 it checks are the ones the mask keeps. -/
theorem decodeFields_passes_iff {row : OpcodeRow} (hrow : row ∈ opcodeRows) {w : Word} (hop : fieldOp w = row.op) :
    (∃ i, decodeFields w = .ok i) ↔ FieldsZeroUnder row.mask w := by
  simp only [decodeFields, FieldsZeroUnder, hop]
  generalize fieldVar w = var, fieldZok w = zok, fieldLok w = lok, fieldCnt w = cnt, fieldInst w = inst,
    fieldDst w = dst
  clear hop
  revert row
  simp only [opcodeRows, List.forall_mem_append, List.forall_mem_cons, List.not_mem_nil, false_implies, implies_true,
    and_true]
  refine ⟨⟨?_, ?_, ?_, ?_, ?_, ?_, ?_⟩, ?_, ?_, ?_, ?_, ?_, ?_, ?_⟩
  all_goals
    simp [fieldVar, fieldZok, fieldLok, fieldCnt, fieldInst, fieldDst, and_eq_self_of_ones, ifUnusedZero_eq_ok,
      and_assoc, and_comm, and_left_comm]

/-- A word encodes a row's command exactly when it matches the row (R136). -/
theorem decode_iff_matches_row {row : OpcodeRow} (hrow : row ∈ opcodeRows) (w : Word) :
    (∃ i, decode w = .ok i ∧ opcodeOf i = row.op) ↔ w &&& row.mask = row.bits := by
  rw [exists_decode_iff, matches_row_iff hrow]
  exact and_congr_right fun _ => and_congr_right fun hop => decodeFields_passes_iff hrow hop

/-! ### The range checks -/

/-- Check 5 stops a field that names no instance (R124). -/
theorem checkInst_outOfRange {s : State} {k : BitVec 4} (h : instInRange s.ninst k = false) :
    checkInst s k = .error .illegalCommand :=
  checkInst_error.2 ⟨Nat.le_of_not_lt (of_decide_eq_false h), rfl⟩

/-- A command whose INST, DST or VAR is out of range is refused with IllegalCommand (R124, R133; checks 5 and 6a of
R490). -/
theorem exec_illFormed {i : Instr} {s : State} (h : i.wellFormed s.ninst = false) :
    exec i s = .next (s.refuse .illegalCommand) := by
  have engine : ∀ {k}, instInRange s.ninst k = false → engineOf s k = .error .illegalCommand := fun hk => by
    simp only [engineOf, checkInst_outOfRange hk, bind_error]
  have variant : ∀ {var k}, (instInRange s.ninst k && varAssigned var) = false →
      seedVariant s var k = .error .illegalCommand := fun hk => by
    refine seedVariant_error.2 ⟨(Bool.and_eq_false_iff.1 hk).imp (fun h => ?_) (fun h => ?_), rfl⟩
    · exact Nat.le_of_not_lt (of_decide_eq_false h)
    · simpa [varAssigned] using h
  cases i with
  | nop => cases h
  | seed var zok lok cnt inst | seedBytes var zok lok cnt inst | seedKey var zok cnt inst | seedEntropy var inst =>
    simp [exec, execSeed, execSeedBytes, execSeedKey, execSeedEntropy, seedBody, seedBytesBody, seedKeyBody, variant h]
  | clone inst dst =>
    cases hinst : instInRange s.ninst inst with
    | false => simp [exec, execClone, cloneBody, checkInst_outOfRange hinst]
    | true =>
      have hdst : instInRange s.ninst dst = false := by simpa [Instr.wellFormed, hinst] using h
      simp [exec, execClone, cloneBody, checkInst_pass (of_decide_eq_true hinst), checkInst_outOfRange hdst]
  | next inst | next32 inst | jump inst | longJump inst | advance inst | stateRead inst | stateWrite inst
  | query inst =>
    simp [exec, execNext, execNext32, execJump, execLongJump, execAdvance, execStateRead, execStateWrite, execQuery,
      nextBody, next32Body, jumpBody, longJumpBody, advanceBody, stateReadBody, stateWriteBody, queryBody, engine h]

/-- Settles O3: match and mask are read off the table; a row's word is decoded by its fields, each compared with what the
mask keeps; and a command out of range is refused by the check that finds it. -/
theorem opcodeTable : Obligations.OpcodeTable := by
  refine ⟨fun row hrow => ?_, fun s w i hw hi => ?_, by decide, by decide⟩
  · obtain ⟨bits, mask⟩ := opcodeRows_bits_mask row hrow
    exact ⟨bits, mask, decode_iff_matches_row hrow⟩
  · simp only [runCommand, hw, exec_illFormed hi]
    rfl

end Sys2Proof.Machine
end

section
/-!
SUPPORT. Two runs of one command from states that differ in the operand memory and its free values alone: they end alike
when the operands read agree (30_encoding.md R135), and a command reads them after its other checks (60_exceptions.md
R490).
-/

namespace Sys2Proof.Machine

/-- The state with other operand memory and other free values in the unwritten registers (R31; log entry 3). -/
def State.withOperands (m : Memory) (n : Nat) (s : State) : State := { s with mem := m, resets := n }

section
variable {s : State} {m : Memory} {n : Nat}

/-- The checks of a seeding command read no operand (R490). -/
theorem seedVariant_withOperands (var : BitVec 6) (k : BitVec 4) :
    seedVariant (s.withOperands m n) var k = seedVariant s var k := rfl

/-- Operand by operand, the words a seeding command reads (R135). -/
theorem readOpnds_withOperands {cnt : Nat} (h : ∀ k, k < cnt → (s.withOperands m n).opnd k = s.opnd k) :
    readOpnds (s.withOperands m n) cnt = readOpnds s cnt :=
  List.map_congr_left fun k hk => h k (List.mem_range.1 hk)

/-- Rules with the same first part leave the same effects if their remainders do. -/
theorem bind_map_congr {α : Type} {x : Except ErrorCode α} {f f' : α → Body}
    (h : ∀ a, x = .ok a → f' a = (f a).map (State.withOperands m n)) :
    (x >>= f') = (x >>= f).map (State.withOperands m n) := by
  cases x with
  | ok a => exact h a rfl
  | error e => rfl

/-- Rules that leave the same effects end in states that differ in the operands alone. -/
theorem finish_withOperands {b b' : Body} (h : b' = b.map (State.withOperands m n)) :
    ∃ t, finish s b = .next t ∧ finish (s.withOperands m n) b' = .next (t.withOperands m n) := by
  subst h
  cases b with
  | ok u => exact ⟨_, rfl, rfl⟩
  | error e => exact ⟨_, rfl, rfl⟩

/-! ### The operands are read after the other checks -/

/-- The checks that come before the operands are read pass: 5, 6a, 7a, and the capability check (R490). -/
def ChecksPass (s : State) (i : Instr) : Prop :=
  i.wellFormed s.ninst = true ∧ s.seededFor i ∧ ¬ UnsupportedCase s i

/-- SEED_KEY's capability check passes on the MT variants (R168, R483). -/
theorem isMt_iff_mem {v : Variant} : isMt v = true ↔ v ∈ [Variant.mt19937, .mt19937w64] := by
  simp [isMt]

/-- A seeding command that has found its variant has passed the range checks. -/
theorem inRange_of_seedVariant {var : BitVec 6} {k : BitVec 4} {v : Variant} (h : seedVariant s var k = .ok v) :
    (instInRange s.ninst k && varAssigned var) = true := by
  obtain ⟨hk, hv⟩ := seedVariant_ok.1 h
  simp [instInRange, varAssigned, hk, hv]

/-- A command that has found its engine has passed the range check and the check for a seeded instance. -/
theorem inRange_of_engineOf {i : Instr} {k : BitVec 4} {e : Engine} (hi : neededInst i = some k)
    (h : engineOf s k = .ok e) : instInRange s.ninst k = true ∧ s.seededFor i ∧ (s.inst k).engine = e := by
  obtain ⟨hk, hv, he⟩ := engineOf_ok.1 h
  exact ⟨decide_eq_true hk, fun j hj => Option.some.inj (hi.symm.trans hj) ▸ hv, he⟩

/-- ADVANCE reads one operand on PCG32, two on PCG64 and none on another variant (R135, R176). -/
theorem advanceEngine_withOperands {e : Engine} {inst : BitVec 4} (he : (s.inst inst).engine = e)
    (h : ChecksPass s (.advance inst) → ∀ k, k < operandsRead s (.advance inst) →
      (s.withOperands m n).opnd k = s.opnd k)
    (hwf : instInRange s.ninst inst = true) (hseeded : s.seededFor (.advance inst)) :
    advanceEngine (s.withOperands m n) e = advanceEngine s e := by
  have supported : engineVariant e ∈ [Variant.pcg32, .pcg64] → ChecksPass s (.advance inst) :=
    fun hmem => ⟨hwf, hseeded, fun hu => hu (by rwa [he])⟩
  cases e with
  | pcg32 g =>
    have hops := h (supported (by simp [engineVariant]))
    simp only [advanceEngine, hops 0 (by simp [operandsRead, he, engineVariant])]
  | pcg64 g =>
    have hops := h (supported (by simp [engineVariant]))
    simp only [advanceEngine, hops 0 (by simp [operandsRead, he, engineVariant]),
      hops 1 (by simp [operandsRead, he, engineVariant])]
  | _ => rfl

/-- A command's outcome rests on no operand but those it reads, and on none if one of the checks before them stops it
(R135, R490). -/
theorem exec_withOperands {i : Instr}
    (h : ChecksPass s i → ∀ k, k < operandsRead s i → (s.withOperands m n).opnd k = s.opnd k) :
    ∃ t, exec i s = .next t ∧ exec i (s.withOperands m n) = .next (t.withOperands m n) := by
  cases i with
  | nop => exact finish_withOperands (s := s) (b := .ok s) rfl
  | seed var zok lok cnt inst =>
    refine finish_withOperands (bind_map_congr fun v hv => ?_)
    have hws : readOpnds (s.withOperands m n) cnt.toNat = readOpnds s cnt.toNat :=
      readOpnds_withOperands (h ⟨inRange_of_seedVariant hv, nofun, id⟩)
    rw [hws]
    exact bind_map_congr fun _ _ => rfl
  | seedBytes var zok lok cnt inst =>
    refine finish_withOperands (bind_map_congr fun v hv => ?_)
    have hws : readOpnds (s.withOperands m n) (byteOperandCount cnt.toNat) = readOpnds s (byteOperandCount cnt.toNat) :=
      readOpnds_withOperands (h ⟨inRange_of_seedVariant hv, nofun, id⟩)
    rw [hws]
    exact bind_map_congr fun _ _ => bind_map_congr fun _ _ => rfl
  | seedKey var zok cnt inst =>
    refine finish_withOperands (bind_map_congr fun v hv => bind_map_congr fun _ hmt => bind_map_congr fun _ _ => ?_)
    have supported : ¬ UnsupportedCase s (.seedKey var zok cnt inst) := by
      rintro ⟨v', hv', hne⟩
      obtain rfl : v' = v := Option.some.inj (hv'.symm.trans (seedVariant_ok.1 hv).2)
      exact hne (isMt_iff_mem.1 (check_ok.1 hmt))
    have hws : readOpnds (s.withOperands m n) cnt.toNat = readOpnds s cnt.toNat :=
      readOpnds_withOperands (h ⟨inRange_of_seedVariant hv, nofun, supported⟩)
    rw [hws]
    exact bind_map_congr fun _ _ => rfl
  | seedEntropy var inst =>
    simp only [exec, execSeedEntropy, seedVariant_withOperands]
    split
    · exact finish_withOperands (s := s.takeDraws _) (bind_map_congr fun _ _ => rfl)
    · exact finish_withOperands rfl
  | next inst | query inst => exact finish_withOperands (bind_map_congr fun _ _ => rfl)
  | next32 inst | jump inst | longJump inst =>
    exact finish_withOperands (bind_map_congr fun _ _ => bind_map_congr fun _ _ => rfl)
  | advance inst =>
    refine finish_withOperands (bind_map_congr fun e he => ?_)
    obtain ⟨hwf, hseeded, heng⟩ := inRange_of_engineOf (s := s) (i := .advance inst) rfl he
    rw [advanceEngine_withOperands heng h hwf hseeded]
    exact bind_map_congr fun _ _ => rfl
  | clone inst dst =>
    refine finish_withOperands (bind_map_congr fun _ _ => bind_map_congr fun _ _ => bind_map_congr fun e _ => ?_)
    split <;> rfl
  | stateRead inst =>
    refine finish_withOperands (bind_map_congr fun e he => ?_)
    obtain ⟨hwf, hseeded, -⟩ := inRange_of_engineOf (s := s) (i := .stateRead inst) rfl he
    have hops := h ⟨hwf, hseeded, id⟩
    rw [hops 0 Nat.one_pos]
    split <;> rfl
  | stateWrite inst =>
    refine finish_withOperands (bind_map_congr fun e he => ?_)
    obtain ⟨hwf, hseeded, -⟩ := inRange_of_engineOf (s := s) (i := .stateWrite inst) rfl he
    have hops := h ⟨hwf, hseeded, id⟩
    rw [hops 0 Nat.two_pos, hops 1 Nat.one_lt_two]
    split <;> rfl

end

/-- A command whose operands the host has written reads written registers alone (R31). -/
theorem opndWritten_of_not_readsUnwritten {s : State} {i : Instr} (h : s.readsUnwritten i = false) {k : Nat}
    (hk : k < operandsRead s i) : s.opndWritten k = true := by
  simpa using List.any_eq_false.1 h k (List.mem_range.2 hk)

/-- Settles O24: one analysis of the commands' rules, `exec_withOperands`, with the operands it needs alike for each of the
three reasons: they are, no check lets the command reach them, or they are written registers. -/
theorem operandsReadOnly : Obligations.OperandsRead := by
  intro i s same
  have alike : ∀ (m : Memory) (n : Nat),
      (ChecksPass s i → ∀ k, k < operandsRead s i → (s.withOperands m n).opnd k = s.opnd k) → same m n := by
    intro m n h
    obtain ⟨t, ht, ht'⟩ := exec_withOperands h
    simp only [same, ht]
    exact ht'
  refine ⟨fun m n h => alike m n fun _ => h, fun stopped m n => alike m n fun hpass => ?_,
    fun h n => alike s.mem n fun _ k hk => ?_⟩
  · obtain ⟨hwf, hseeded, hsupported⟩ := hpass
    obtain illFormed | unseeded | unsupported := stopped
    · exact absurd hwf (by simp [illFormed])
    · exact absurd hseeded unseeded
    · exact absurd unsupported hsupported
  · exact State.opnd_resets (opndWritten_of_not_readsUnwritten h hk) n

end Sys2Proof.Machine
end

section
/-!
SUPPORT. Commands that complete on a seeded instance (40_commands.md R171 to R176, 60_exceptions.md R485, R490): the
next state, given what the command makes of the engine.
-/

namespace Sys2Proof.Machine

section
variable {s : State} {i : BitVec 4} {e e' : Engine}

/-- Checks 5 and 7a find the engine of a seeded instance (R485, R490). -/
theorem engineOf_of_holds (h : s.holds i e) : engineOf s i = .ok e := by
  obtain ⟨hi, hinst⟩ := h
  exact engineOf_ok.2 ⟨hi, congrArg Inst.valid hinst, congrArg Inst.engine hinst⟩

/-- A command that completes with a new engine in its instance leaves the stepped state (R35, R160). -/
theorem setEngine_complete : (s.setEngine i e).complete = s.stepped i e := rfl

/-- A command that completes with a new engine and a new RES leaves the answered state (R33, R35). -/
theorem setRes_setEngine_complete (v : Word) : ((s.setEngine i e).setRes v).complete = s.answered i e v := rfl

/-- JUMP on a variant that defines it (R174). -/
theorem exec_jump_of_holds (h : s.holds i e) (hj : jumpEngine e = some e') :
    exec (.jump i) s = .next (s.stepped i e') := by
  simp [exec, execJump, jumpBody, engineOf_of_holds h, hj, orUnsupported, setEngine_complete]

/-- LONG_JUMP on a variant that defines it (R175). -/
theorem exec_longJump_of_holds (h : s.holds i e) (hj : longJumpEngine e = some e') :
    exec (.longJump i) s = .next (s.stepped i e') := by
  simp [exec, execLongJump, longJumpBody, engineOf_of_holds h, hj, orUnsupported, setEngine_complete]

/-- ADVANCE on a variant that defines it (R176). -/
theorem exec_advance_of_holds (h : s.holds i e) (ha : advanceEngine s e = .ok e') :
    exec (.advance i) s = .next (s.stepped i e') := by
  simp [exec, execAdvance, advanceBody, engineOf_of_holds h, ha, setEngine_complete]

end

end Sys2Proof.Machine
end

section
/-!
SUPPORT. The PCG advance (44_pcg.md R310, R311): a step is an affine map of the state word, and the doubling loop
composes delta of them.
-/

namespace Sys2Proof.Machine

/-- `x <- m * x + p`, one LCG step on the state word (R301, R304). -/
def affine {w : Nat} (m p x : BitVec w) : BitVec w := m * x + p

/-- Steps change the state word alone, each by the affine map of the multiplier and inc. -/
theorem lcgStep_iterate {w : Nat} (mult : BitVec w) (g : Lcg w) (k : Nat) :
    (lcgStep mult)^[k] g = { g with state := (affine mult g.inc)^[k] g.state } := by
  induction k with
  | zero => rfl
  | succ k ih =>
    rw [Function.iterate_succ_apply', ih, Function.iterate_succ_apply', affine, BitVec.mul_comm mult]
    rfl

/-- An affine map applied twice is affine: the squared pair of the loop (R310). -/
theorem affine_twice {w : Nat} (m p : BitVec w) : (affine m p)^[2] = affine (m * m) ((m + 1) * p) := by
  funext x
  show m * (m * x + p) + p = m * m * x + (m + 1) * p
  ring

/-- An affine map after another: the pair an odd turn of the loop accumulates (R310). -/
theorem affine_affine {w : Nat} (m p m' p' x : BitVec w) :
    affine m p (affine m' p' x) = affine (m' * m) (p' * m + p) x := by
  simp only [affine]
  ring

/-- The loop composes `delta` maps of the current pair onto the accumulated one, given a turn for each bit of `delta`
(R311). -/
theorem lcgAdvanceLoop_eq_iterate {w fuel delta : Nat} (h : delta < 2 ^ fuel) (am ap cm cp x : BitVec w) :
    affine (lcgAdvanceLoop fuel delta am ap cm cp).1 (lcgAdvanceLoop fuel delta am ap cm cp).2 x =
      (affine cm cp)^[delta] (affine am ap x) := by
  induction fuel generalizing delta am ap cm cp with
  | zero =>
    obtain rfl : delta = 0 := by omega
    rfl
  | succ fuel ih =>
    unfold lcgAdvanceLoop
    split
    · subst delta
      rfl
    · have halves : delta = 2 * (delta / 2) + delta % 2 := (Nat.div_add_mod delta 2).symm
      rw [ih (by omega), ← affine_twice, ← Function.iterate_mul]
      conv_rhs => rw [halves, Function.iterate_add_apply]
      congr 1
      obtain even | odd := Nat.mod_two_eq_zero_or_one delta
      · simp [even]
      · simp [odd, affine_affine]

/-- `pcg_advance` by delta is delta steps (R310, R311). -/
theorem lcgAdvance_eq_iterate {w : Nat} (mult delta : BitVec w) (g : Lcg w) :
    lcgAdvance mult delta g = (lcgStep mult)^[delta.toNat] g := by
  have loop := lcgAdvanceLoop_eq_iterate delta.isLt 1 0 mult g.inc g.state
  have start : affine (1 : BitVec w) 0 g.state = g.state := by simp [affine]
  rw [start] at loop
  rw [lcgStep_iterate, ← loop]
  rfl

/-- The 128-bit delta as a number: OPND[1] is its high half (R98). -/
theorem delta128_toNat (lo hi : Word) : (delta128 lo hi).toNat = lo.toNat + hi.toNat * 2 ^ 64 := by
  rw [delta128, toNat_append_eq_add, Nat.add_comm]

/-- Settles O48: the advance of each width is that many steps, the delta being the operands' number. -/
theorem advanceIsStepping : Obligations.AdvanceIsStepping := by
  refine ⟨fun s i g delta h h0 => exec_advance_of_holds h ?_, fun s i g lo hi h h0 h1 => exec_advance_of_holds h ?_⟩
  · rw [advanceEngine, h0, lcgAdvance_eq_iterate]
    rfl
  · rw [advanceEngine, h0, h1, lcgAdvance_eq_iterate, delta128_toNat]
    rfl

end Sys2Proof.Machine
end

section
/-!
SUPPORT. The modular view of the MWC step (48_mwc.md R422, 49_modular_jump.md R450 to R456): the packed state is a
number in base 2^64, a step divides it by 2^64 modulo M, and so the jump by a power of the inverse is a stride of steps.
-/

namespace Sys2Proof.Machine

/-! ### Numbers in base 2^64 -/

/-- The number with digits `f 0`, `f 1`, ... `f (n - 1)` in base 2^64. -/
def digitSum (f : Nat → Nat) (n : Nat) : Nat := ∑ j ∈ Finset.range n, f j * 2 ^ (64 * j)

/-- The lowest digit split off. -/
theorem digitSum_succ (f : Nat → Nat) (n : Nat) :
    digitSum f (n + 1) = f 0 + 2 ^ 64 * digitSum (fun j => f (j + 1)) n := by
  have shifted : ∀ j, f (j + 1) * 2 ^ (64 * (j + 1)) = 2 ^ 64 * (f (j + 1) * 2 ^ (64 * j)) := fun j => by
    rw [Nat.mul_succ, Nat.pow_add]
    ring
  simp only [digitSum, Finset.sum_range_succ', shifted, Finset.mul_sum]
  simp [Nat.add_comm]

/-- The highest digit split off. -/
theorem digitSum_succ_top (f : Nat → Nat) (n : Nat) : digitSum f (n + 1) = digitSum f n + f n * 2 ^ (64 * n) :=
  Finset.sum_range_succ _ n

/-- The digits of a number are read off it. -/
theorem digitSum_digit {f : Nat → Nat} (hf : ∀ j, f j < 2 ^ 64) {j n : Nat} (hj : j < n) :
    digitSum f n / 2 ^ (64 * j) % 2 ^ 64 = f j := by
  induction n generalizing f j with
  | zero => cases hj
  | succ n ih =>
    have h0 := hf 0
    rw [digitSum_succ]
    cases j with
    | zero => omega
    | succ j =>
      rw [Nat.mul_succ, Nat.add_comm (64 * j), Nat.pow_add, ← Nat.div_div_eq_div_mul,
        Nat.add_mul_div_left _ _ (by decide), Nat.div_eq_of_lt h0, Nat.zero_add]
      exact ih (fun j => hf (j + 1)) (Nat.lt_of_succ_lt_succ hj)

/-! ### The packed state -/

/-- A word inside the array is the array's (R62). -/
theorem getD_eq_getElem {r j : Nat} (w : Vector Word r) (h : j < r) : w.getD j 0 = w[j] := by
  simp [Vector.getD, h]

/-- Digit j of the packed state: a data word, or the carry above them (R450). -/
def mwcDigit {r : Nat} (s : Mwc r) (j : Nat) : Nat := if j < r then (s.w.getD j 0).toNat else s.c.toNat

section
variable {r : Nat} (s : Mwc r)

theorem mwcDigit_lt (j : Nat) : mwcDigit s j < 2 ^ 64 := by
  unfold mwcDigit
  split <;> exact BitVec.isLt _

theorem mwcDigit_word {j : Nat} (h : j < r) : mwcDigit s j = s.w[j].toNat := by
  rw [mwcDigit, if_pos h, getD_eq_getElem _ h]

theorem mwcDigit_carry : mwcDigit s r = s.c.toNat := by
  simp [mwcDigit]

/-- The packed state is the number with these digits (R450). -/
theorem mwcPack_eq_digitSum : mwcPack s = digitSum (mwcDigit s) (r + 1) := by
  have words : digitSum (mwcDigit s) r = ((List.finRange r).map fun i => s.w[i].toNat * 2 ^ (64 * i.val)).sum := by
    rw [digitSum, Finset.sum_range, Fin.sum_univ_def]
    exact congrArg List.sum (List.map_congr_left fun i _ => by rw [mwcDigit_word s i.isLt]; rfl)
  rw [digitSum_succ_top, words, mwcDigit_carry, mwcPack]

/-- Unpacking gives back the state that was packed (R450). -/
theorem mwcUnpack_mwcPack : mwcUnpack r (mwcPack s) = s := by
  have digit : ∀ {j} {x : Word}, j < r + 1 → mwcDigit s j = x.toNat →
      BitVec.ofNat 64 (mwcPack s / 2 ^ (64 * j)) = x := by
    intro j x hj hx
    refine BitVec.eq_of_toNat_eq ?_
    rw [BitVec.toNat_ofNat, mwcPack_eq_digitSum, digitSum_digit (mwcDigit_lt s) hj, hx]
  have words : (mwcUnpack r (mwcPack s)).w = s.w := by
    refine Vector.ext fun j hj => ?_
    simp only [mwcUnpack, Vector.getElem_ofFn]
    exact digit (by omega) (mwcDigit_word s hj)
  have carry : (mwcUnpack r (mwcPack s)).c = s.c := digit (Nat.lt_succ_self r) (mwcDigit_carry s)
  calc mwcUnpack r (mwcPack s) = ⟨(mwcUnpack r (mwcPack s)).w, (mwcUnpack r (mwcPack s)).c⟩ := rfl
    _ = s := by rw [words, carry]

end

/-! ### A step divides by 2^64 modulo M -/

/-- t fits in two words (R422). -/
theorem mwcT_lt {r : Nat} (mult : Word) (s : Mwc r) : mwcT mult s < 2 ^ 128 := by
  have hmult : mult.toNat ≤ 2 ^ 64 - 1 := Nat.le_sub_one_of_lt mult.isLt
  have hword : (s.w.getD 0 0).toNat ≤ 2 ^ 64 - 1 := Nat.le_sub_one_of_lt (BitVec.isLt _)
  have product := Nat.mul_le_mul hmult hword
  have carry := s.c.isLt
  unfold mwcT
  omega

/-- The digits of the stepped state: the words one older, then the halves of t (R422). -/
theorem mwcDigit_mwcStep {n : Nat} (mult : Word) (s : Mwc (n + 1)) :
    (∀ j, j < n → mwcDigit (mwcStep mult s) j = mwcDigit s (j + 1)) ∧
      mwcDigit (mwcStep mult s) n = mwcT mult s % 2 ^ 64 ∧
      mwcDigit (mwcStep mult s) (n + 1) = mwcT mult s / 2 ^ 64 := by
  have ht := mwcT_lt mult s
  refine ⟨fun j hj => ?_, ?_, ?_⟩
  · rw [mwcDigit_word _ (by omega), mwcDigit_word _ (by omega)]
    simp only [mwcStep, Vector.getElem_ofFn, Nat.succ_lt_succ hj, if_true, getD_eq_getElem]
  · rw [mwcDigit_word _ (by omega)]
    simp [mwcStep]
  · rw [mwcDigit_carry, mwcStep, BitVec.toNat_ofNat]
    omega

/-- A step adds the oldest word times M and divides by 2^64, exactly. -/
theorem mwcPack_mwcStep {n : Nat} (mult : Word) (s : Mwc (n + 1)) :
    2 ^ 64 * mwcPack (mwcStep mult s) + mwcDigit s 0 =
      mwcPack s + mwcDigit s 0 * (mult.toNat * 2 ^ (64 * (n + 1))) := by
  obtain ⟨words, low, high⟩ := mwcDigit_mwcStep mult s
  have older : digitSum (mwcDigit (mwcStep mult s)) n = digitSum (fun j => mwcDigit s (j + 1)) n :=
    Finset.sum_congr rfl fun j hj => by rw [words j (Finset.mem_range.1 hj)]
  have halves : mwcT mult s = mwcT mult s / 2 ^ 64 * 2 ^ 64 + mwcT mult s % 2 ^ 64 := (Nat.div_add_mod' _ _).symm
  have product : mwcT mult s = mult.toNat * mwcDigit s 0 + mwcDigit s (n + 1) := by
    rw [mwcDigit_carry, mwcDigit_word s (Nat.succ_pos n), mwcT, getD_eq_getElem]
  have shift : 2 ^ (64 * (n + 1)) = 2 ^ (64 * n) * 2 ^ 64 := by rw [Nat.mul_succ, Nat.pow_add]
  rw [mwcPack_eq_digitSum, mwcPack_eq_digitSum, digitSum_succ_top, digitSum_succ_top, older, low, high,
    digitSum_succ, digitSum_succ_top, shift]
  generalize mwcT mult s / 2 ^ 64 = hi, mwcT mult s % 2 ^ 64 = lo at *
  generalize 2 ^ (64 * n) = b, digitSum (fun j => mwcDigit s (j + 1)) n = older, (2 : Nat) ^ 64 = B at *
  linear_combination B * b * (product - halves)

section
variable {n : Nat} {mult : Word}

/-- M is one below a multiple of `2^(64 r)` (R450). -/
theorem mwcModulus_add_one (h : mult ≠ 0) : mwcModulus (n + 1) mult + 1 = mult.toNat * 2 ^ (64 * (n + 1)) := by
  have hpos : 0 < mult.toNat := Nat.pos_of_ne_zero fun h0 => h (BitVec.eq_of_toNat_eq h0)
  have := Nat.mul_pos hpos (Nat.two_pow_pos (64 * (n + 1)))
  unfold mwcModulus
  omega

/-- Modulo M a step divides by 2^64 (R452). -/
theorem mwcPack_mwcStep_modEq (h : mult ≠ 0) (s : Mwc (n + 1)) :
    2 ^ 64 * mwcPack (mwcStep mult s) ≡ mwcPack s [MOD mwcModulus (n + 1) mult] := by
  have step := mwcPack_mwcStep mult s
  rw [← mwcModulus_add_one h, Nat.mul_succ, ← Nat.add_assoc] at step
  rw [Nat.add_right_cancel step]
  exact Nat.ModEq.symm (Nat.modEq_iff_dvd' (Nat.le_add_right _ _) |>.2 (by simp))

/-- N steps divide by `2^(64 N)` (R452). -/
theorem mwcPack_iterate_modEq (h : mult ≠ 0) (s : Mwc (n + 1)) (k : Nat) :
    (2 ^ 64) ^ k * mwcPack ((mwcStep mult)^[k] s) ≡ mwcPack s [MOD mwcModulus (n + 1) mult] := by
  induction k with
  | zero => simp [Nat.ModEq]
  | succ k ih =>
    rw [Function.iterate_succ_apply', Nat.pow_succ, Nat.mul_assoc]
    exact ((mwcPack_mwcStep_modEq h _).mul_left _).trans ih

/-- A step of a canonical state is canonical (R456). -/
theorem mwcCanonical_mwcStep (h : mult ≠ 0) {s : Mwc (n + 1)} (hs : mwcCanonical mult s) :
    mwcCanonical mult (mwcStep mult s) := by
  have step := mwcPack_mwcStep mult s
  rw [← mwcModulus_add_one h, Nat.mul_succ, ← Nat.add_assoc] at step
  have word := Nat.mul_le_mul_right (mwcModulus (n + 1) mult) (Nat.le_sub_one_of_lt (mwcDigit_lt s 0))
  unfold mwcCanonical at *
  omega

theorem mwcCanonical_iterate (h : mult ≠ 0) {s : Mwc (n + 1)} (hs : mwcCanonical mult s) (k : Nat) :
    mwcCanonical mult ((mwcStep mult)^[k] s) := by
  induction k with
  | zero => exact hs
  | succ k ih =>
    rw [Function.iterate_succ_apply']
    exact mwcCanonical_mwcStep h ih

end

/-! ### The jump constants -/

/-- Squaring modulo m. -/
def squareMod (m x : Nat) : Nat := x * x % m

/-- Repeated squaring computes a power of 2 whose exponent is one (R454). -/
theorem squareMod_iterate_modEq (m x k : Nat) : (squareMod m)^[k] x ≡ x ^ 2 ^ k [MOD m] := by
  induction k with
  | zero => simp [Nat.ModEq]
  | succ k ih =>
    rw [Function.iterate_succ_apply', Nat.pow_succ, Nat.pow_mul, Nat.pow_two]
    exact (Nat.mod_modEq _ _).trans (ih.mul ih)

/-- J is the inverse of `2^(64 N)` for the stride `N = 2^k`, checked by squaring 2 k + 6 times (R452, R454). -/
def InvertsStride (m k j : Nat) : Prop := (squareMod m)^[k + 6] 2 * j % m = 1 % m

theorem InvertsStride.modEq {m k j : Nat} (h : InvertsStride m k j) : (2 ^ 64) ^ 2 ^ k * j ≡ 1 [MOD m] := by
  have power : (squareMod m)^[k + 6] 2 ≡ (2 ^ 64) ^ 2 ^ k [MOD m] := by
    have := squareMod_iterate_modEq m 2 (k + 6)
    rwa [Nat.pow_add 2 k 6, Nat.mul_comm, Nat.pow_mul] at this
  exact (power.symm.mul_right j).trans h

/-- Multiplying by an inverse of the stride undoes the division by it. -/
theorem InvertsStride.mul_modEq {m k j x y : Nat} (h : InvertsStride m k j) (hxy : (2 ^ 64) ^ 2 ^ k * y ≡ x [MOD m]) :
    x * j ≡ y [MOD m] := by
  calc x * j ≡ (2 ^ 64) ^ 2 ^ k * y * j [MOD m] := (hxy.mul_right j).symm
    _ = (2 ^ 64) ^ 2 ^ k * j * y := by ring
    _ ≡ 1 * y [MOD m] := h.modEq.mul_right y
    _ = y := Nat.one_mul y

/-- On a canonical state the jump by such a J is `2^k` steps (R456). -/
theorem mwcJump_eq_iterate {n k j : Nat} {mult : Word} (hmult : mult ≠ 0)
    (hj : InvertsStride (mwcModulus (n + 1) mult) k j) {s : Mwc (n + 1)} (hs : mwcCanonical mult s) :
    mwcJump mult j s = (mwcStep mult)^[2 ^ k] s := by
  have packed : mwcPack s * j % mwcModulus (n + 1) mult = mwcPack ((mwcStep mult)^[2 ^ k] s) :=
    Nat.mod_eq_of_modEq (hj.mul_modEq (mwcPack_iterate_modEq hmult s _)) (mwcCanonical_iterate hmult hs _)
  rw [mwcJump, packed, mwcUnpack_mwcPack]

theorem mwc128JumpConst_invertsStride : InvertsStride (mwcModulus 1 mwc128A) 64 mwc128JumpConst := by
  unfold InvertsStride
  decide +kernel

theorem mwc128LongJumpConst_invertsStride : InvertsStride (mwcModulus 1 mwc128A) 96 mwc128LongJumpConst := by
  unfold InvertsStride
  decide +kernel

theorem mwc192JumpConst_invertsStride : InvertsStride (mwcModulus 2 mwc192A) 96 mwc192JumpConst := by
  unfold InvertsStride
  decide +kernel

theorem mwc192LongJumpConst_invertsStride : InvertsStride (mwcModulus 2 mwc192A) 144 mwc192LongJumpConst := by
  unfold InvertsStride
  decide +kernel

theorem mwc256JumpConst_invertsStride : InvertsStride (mwcModulus 3 mwc256A) 128 mwc256JumpConst := by
  unfold InvertsStride
  decide +kernel

theorem mwc256LongJumpConst_invertsStride : InvertsStride (mwcModulus 3 mwc256A) 192 mwc256LongJumpConst := by
  unfold InvertsStride
  decide +kernel

/-- Settles O51: each constant is the inverse of its stride's power of 2^64 modulo M. -/
theorem mwcJumpIsStride : Obligations.MwcJumpIsStride := by
  refine ⟨fun s i m h hm => ⟨exec_jump_of_holds h ?_, exec_longJump_of_holds h ?_⟩,
    fun s i m h hm => ⟨exec_jump_of_holds h ?_, exec_longJump_of_holds h ?_⟩,
    fun s i m h hm => ⟨exec_jump_of_holds h ?_, exec_longJump_of_holds h ?_⟩⟩
  · rw [jumpEngine, mwcJump_eq_iterate (by decide) mwc128JumpConst_invertsStride hm]
  · rw [longJumpEngine, mwcJump_eq_iterate (by decide) mwc128LongJumpConst_invertsStride hm]
  · rw [jumpEngine, mwcJump_eq_iterate (by decide) mwc192JumpConst_invertsStride hm]
  · rw [longJumpEngine, mwcJump_eq_iterate (by decide) mwc192LongJumpConst_invertsStride hm]
  · rw [jumpEngine, mwcJump_eq_iterate (by decide) mwc256JumpConst_invertsStride hm]
  · rw [longJumpEngine, mwcJump_eq_iterate (by decide) mwc256LongJumpConst_invertsStride hm]

end Sys2Proof.Machine
end

section
/-!
SUPPORT. GMWC128 (48_mwc.md R427 to R429, 49_modular_jump.md R460 to R462): a step is the decoding of t, the s-value of
the state it makes is t again, and modulo m that is the s-value before, divided by 2^64.
-/

namespace Sys2Proof.Machine

theorem gmwcModulus_pos : 0 < gmwcModulus := by decide

/-- The sum whose upper half is the carry that an s-value decodes to (R428, R460). -/
def gmwcSum (v : Nat) : Nat := v + gmwcMinusA0.toNat * (gmwcOfSValue v).x.toNat

theorem gmwcOfSValue_x (v : Nat) : (gmwcOfSValue v).x.toNat = v * gmwcA0Inv.toNat % 2 ^ 64 := by
  simp [gmwcOfSValue]

/-- The low half of the sum is 0: A0INV is the inverse of -MINUSA0 modulo 2^64 (R427, R428). -/
theorem gmwcSum_low (v : Nat) : gmwcSum v % 2 ^ 64 = 0 := by
  have inverse : (1 + gmwcMinusA0.toNat * gmwcA0Inv.toNat) % 2 ^ 64 = 0 := by decide
  have product : gmwcSum v ≡ v * (1 + gmwcMinusA0.toNat * gmwcA0Inv.toNat) [MOD 2 ^ 64] := by
    calc v + gmwcMinusA0.toNat * (gmwcOfSValue v).x.toNat
        ≡ v + gmwcMinusA0.toNat * (v * gmwcA0Inv.toNat) [MOD 2 ^ 64] := by
          rw [gmwcOfSValue_x]
          exact ((Nat.mod_modEq _ _).mul_left _).add_left v
      _ = v * (1 + gmwcMinusA0.toNat * gmwcA0Inv.toNat) := by ring
  rw [product, Nat.mul_mod, inverse, Nat.mul_zero, Nat.zero_mod]

section
variable {v : Nat} (h : v < gmwcModulus)
include h

/-- The carry of a decoded s-value fits in its word, so that the sum is `2^64 c` exactly (R428). -/
theorem gmwcSum_eq : gmwcSum v = 2 ^ 64 * (gmwcOfSValue v).c.toNat := by
  have low := gmwcSum_low v
  have carry : (gmwcOfSValue v).c.toNat = gmwcSum v / 2 ^ 64 % 2 ^ 64 := by
    unfold gmwcSum gmwcOfSValue
    exact BitVec.toNat_ofNat _ _
  have hx := Nat.mul_le_mul_left gmwcMinusA0.toNat (Nat.le_sub_one_of_lt (gmwcOfSValue v).x.isLt)
  have bound : gmwcModulus + gmwcMinusA0.toNat * (2 ^ 64 - 1) < 2 ^ 128 := by decide
  have hsum : gmwcSum v < 2 ^ 128 := by
    unfold gmwcSum
    generalize gmwcMinusA0.toNat = a0, gmwcModulus = m at *
    omega
  omega

/-- The s-value of a decoded state is the number that was decoded (R455, R460). -/
theorem gmwcSValue_gmwcOfSValue : gmwcSValue (gmwcOfSValue v) = v := by
  have integers : (2 ^ 64 * (gmwcOfSValue v).c.toNat : Int) - gmwcMinusA0.toNat * (gmwcOfSValue v).x.toNat = v := by
    have sum := gmwcSum_eq h
    rw [gmwcSum] at sum
    have := congrArg (Nat.cast : Nat → Int) sum
    push_cast at this
    linarith
  rw [gmwcSValue, integers, Int.emod_eq_of_lt (by omega) (by exact_mod_cast h), Int.toNat_natCast]

end

/-- t of any state is its s-value divided by 2^64, modulo m (R452, R460). -/
theorem gmwcT_modEq (g : Gmwc) : 2 ^ 64 * gmwcT g ≡ gmwcSValue g [MOD gmwcModulus] := by
  have modulus : (gmwcModulus : Int) ≠ 0 := Int.natCast_ne_zero.2 (Nat.ne_of_gt gmwcModulus_pos)
  have svalue : (gmwcSValue g : Int) =
      (2 ^ 64 * g.c.toNat - gmwcMinusA0.toNat * g.x.toNat : Int) % (gmwcModulus : Int) :=
    Int.toNat_of_nonneg (Int.emod_nonneg _ modulus)
  have step : ((2 ^ 64 * gmwcT g : Nat) : Int) =
      2 ^ 64 * g.c.toNat - gmwcMinusA0.toNat * g.x.toNat + gmwcModulus * g.x.toNat := by
    unfold gmwcT gmwcModulus
    generalize gmwcA1.toNat = a1, gmwcMinusA0.toNat = a0
    push_cast
    ring
  rw [← Int.natCast_modEq_iff, svalue, step, Int.ModEq, Int.add_mul_emod_self_left, Int.emod_emod]

/-- t of a decoded state is below m (R462). -/
theorem gmwcT_gmwcOfSValue_lt {v : Nat} (h : v < gmwcModulus) : gmwcT (gmwcOfSValue v) < gmwcModulus := by
  have sum := gmwcSum_eq h
  have hx := Nat.mul_le_mul_left gmwcModulus (Nat.le_sub_one_of_lt (gmwcOfSValue v).x.isLt)
  unfold gmwcT gmwcSum gmwcModulus at *
  generalize gmwcA1.toNat = a1, gmwcMinusA0.toNat = a0, (gmwcOfSValue v).x.toNat = x, (gmwcOfSValue v).c.toNat = c at *
  nlinarith

/-- A step decodes t (R428). -/
theorem gmwcNext_eq (g : Gmwc) : (gmwcNext g).2 = gmwcOfSValue (gmwcT g) := by
  have word : gmwcA0Inv * BitVec.ofNat 64 (gmwcT g) = BitVec.ofNat 64 (gmwcT g * gmwcA0Inv.toNat) := by
    rw [BitVec.mul_comm, BitVec.ofNat_mul, BitVec.ofNat_toNat, BitVec.setWidth_eq]
  simp only [gmwcNext, gmwcOfSValue, word]

/-- Every state that a step or a jump leaves has t below m, if the number decoded is (R462). -/
theorem gmwcT_gmwcNext_lt {g : Gmwc} (h : gmwcT g < gmwcModulus) : gmwcT (gmwcNext g).2 < gmwcModulus := by
  rw [gmwcNext_eq]
  exact gmwcT_gmwcOfSValue_lt h

/-- N steps keep t below m, and t after them is the s-value before them divided by `2^(64 (N + 1))` (R462). -/
theorem gmwcT_iterate {g : Gmwc} (h : gmwcT g < gmwcModulus) (k : Nat) :
    gmwcT ((fun x => (gmwcNext x).2)^[k] g) < gmwcModulus ∧
      (2 ^ 64) ^ (k + 1) * gmwcT ((fun x => (gmwcNext x).2)^[k] g) ≡ gmwcSValue g [MOD gmwcModulus] := by
  induction k with
  | zero => exact ⟨h, gmwcT_modEq g⟩
  | succ k ih =>
    obtain ⟨below, divided⟩ := ih
    rw [Function.iterate_succ_apply']
    generalize (fun x => (gmwcNext x).2)^[k] g = g' at *
    refine ⟨gmwcT_gmwcNext_lt below, ?_⟩
    have step : 2 ^ 64 * gmwcT (gmwcNext g').2 ≡ gmwcT g' [MOD gmwcModulus] := by
      have := gmwcT_modEq (gmwcNext g').2
      rwa [gmwcNext_eq, gmwcSValue_gmwcOfSValue below, ← gmwcNext_eq] at this
    rw [Nat.pow_succ, Nat.mul_assoc]
    exact (step.mul_left _).trans divided

/-- The jump by the inverse of a stride's power of 2^64 is that many steps (R461, R462). -/
theorem gmwcJump_eq_iterate {j k : Nat} (hk : InvertsStride gmwcModulus k j) {g : Gmwc} (h : gmwcT g < gmwcModulus) :
    gmwcJump j g = (fun x => (gmwcNext x).2)^[2 ^ k] g := by
  obtain ⟨n, hn⟩ : ∃ n, 2 ^ k = n + 1 := Nat.exists_eq_succ_of_ne_zero (Nat.two_pow_pos k).ne'
  obtain ⟨below, divided⟩ := gmwcT_iterate h n
  rw [← hn] at divided
  have decoded : gmwcSValue g * j % gmwcModulus = gmwcT ((fun x => (gmwcNext x).2)^[n] g) :=
    Nat.mod_eq_of_modEq (hk.mul_modEq divided) below
  rw [gmwcJump, decoded, ← gmwcNext_eq, hn, Function.iterate_succ_apply']

theorem gmwcJumpConst_invertsStride : InvertsStride gmwcModulus 64 gmwcJumpConst := by
  unfold InvertsStride
  decide +kernel

/-- A seeded state has t below m: c is 1 (R429). -/
theorem gmwcT_gmwcInit_lt (a : Word) : gmwcT (gmwcInit a) < gmwcModulus := by
  have hx := Nat.mul_le_mul_left gmwcA1.toNat (Nat.le_sub_one_of_lt a.isLt)
  have bound : gmwcA1.toNat * (2 ^ 64 - 1) + 1 < gmwcModulus := by decide
  show gmwcA1.toNat * a.toNat + 1 < gmwcModulus
  omega

/-- Settles O52: the constant is the inverse of 2^64 to the stride's power, and every decoded s-value has t below m. -/
theorem gmwcJumpIsStride : Obligations.GmwcJumpIsStride := by
  refine ⟨fun s i g h hg => exec_jump_of_holds h ?_, gmwcT_gmwcInit_lt, fun g => gmwcT_gmwcNext_lt, fun k g => ?_⟩
  · rw [jumpEngine, gmwcJump_eq_iterate gmwcJumpConst_invertsStride hg]
  · exact gmwcT_gmwcOfSValue_lt (Nat.mod_lt _ gmwcModulus_pos)

end Sys2Proof.Machine
end

section
/-!
SUPPORT. Polynomials over GF(2) in a linear step (43_gf2_jump.md R280 to R285): the bit walk evaluates one, and products
are taken modulo a polynomial that the step satisfies.
-/

namespace Sys2Proof.Machine

/-! ### States as a vector space over GF(2) -/

/-- The all-zero words. -/
def zeroWords (n : Nat) : Vector Word n := Vector.replicate n 0

section
variable {n : Nat}

@[simp] theorem getElem_xorWords (a b : Vector Word n) {j : Nat} (h : j < n) : (xorWords a b)[j] = a[j] ^^^ b[j] := by
  simp [xorWords]

@[simp] theorem getElem_zeroWords {j : Nat} (h : j < n) : (zeroWords n)[j] = 0 := by
  simp [zeroWords]

theorem xorWords_assoc (a b c : Vector Word n) : xorWords (xorWords a b) c = xorWords a (xorWords b c) :=
  Vector.ext fun j hj => by simp [BitVec.xor_assoc]

theorem xorWords_comm (a b : Vector Word n) : xorWords a b = xorWords b a :=
  Vector.ext fun j hj => by simp [BitVec.xor_comm]

theorem xorWords_left_comm (a b c : Vector Word n) : xorWords a (xorWords b c) = xorWords b (xorWords a c) := by
  rw [← xorWords_assoc, xorWords_comm a, xorWords_assoc]

@[simp] theorem xorWords_self (a : Vector Word n) : xorWords a a = zeroWords n := Vector.ext fun j hj => by simp

@[simp] theorem xorWords_zero (a : Vector Word n) : xorWords a (zeroWords n) = a := Vector.ext fun j hj => by simp

@[simp] theorem zero_xorWords (a : Vector Word n) : xorWords (zeroWords n) a = a := Vector.ext fun j hj => by simp

/-- The state with coefficient `b`. -/
def scaleWords (b : Bool) (s : Vector Word n) : Vector Word n := if b then s else zeroWords n

@[simp] theorem scaleWords_true (s : Vector Word n) : scaleWords true s = s := rfl
@[simp] theorem scaleWords_false (s : Vector Word n) : scaleWords false s = zeroWords n := rfl

theorem scaleWords_xorWords (b : Bool) (s t : Vector Word n) :
    scaleWords b (xorWords s t) = xorWords (scaleWords b s) (scaleWords b t) := by
  cases b <;> simp

theorem scaleWords_xor (a b : Bool) (s : Vector Word n) :
    scaleWords (a ^^ b) s = xorWords (scaleWords a s) (scaleWords b s) := by
  cases a <;> cases b <;> simp

/-- The step is linear over GF(2) (R285). -/
def IsLinear (step : Vector Word n → Vector Word n) : Prop := ∀ s t, step (xorWords s t) = xorWords (step s) (step t)

section
variable {step : Vector Word n → Vector Word n} (h : IsLinear step)
include h

theorem IsLinear.zero : step (zeroWords n) = zeroWords n := by
  have := h (zeroWords n) (zeroWords n)
  simpa using this

theorem IsLinear.scaleWords (b : Bool) (s : Vector Word n) :
    step (scaleWords b s) = Machine.scaleWords b (step s) := by
  cases b
  · exact h.zero
  · rfl

theorem IsLinear.iterate (k : Nat) : IsLinear step^[k] := by
  intro s t
  induction k with
  | zero => rfl
  | succ k ih => simp only [Function.iterate_succ_apply', ih, h _ _]

end

/-! ### The bit walk evaluates a polynomial -/

/-- The polynomial with coefficients `bits`, the constant one first, evaluated at the step and applied to the state. -/
def polyWalk (step : Vector Word n → Vector Word n) : List Bool → Vector Word n → Vector Word n
  | [], _ => zeroWords n
  | b :: bits, s => xorWords (scaleWords b s) (polyWalk step bits (step s))

variable {step : Vector Word n → Vector Word n}

/-- What the walk has accumulated stays a summand (R281). -/
theorem gf2Walk_acc (bits : List Bool) (acc s : Vector Word n) :
    (gf2Walk step id bits acc s).1 = xorWords acc (polyWalk step bits s) := by
  induction bits generalizing acc s with
  | nil => simp [gf2Walk, polyWalk]
  | cons b bits ih =>
    rw [gf2Walk, ih, polyWalk, ← xorWords_assoc]
    cases b <;> simp

/-- The jump is the table's polynomial of the step (R281, R284). -/
theorem gf2Jump_eq_polyWalk (table : List Word) (s : Vector Word n) :
    gf2Jump step table s = polyWalk step (tableBits table) s :=
  (gf2Walk_acc _ _ s).trans (zero_xorWords _)

theorem polyWalk_append (bits : List Bool) (b : Bool) (s : Vector Word n) :
    polyWalk step (bits ++ [b]) s = xorWords (polyWalk step bits s) (scaleWords b (step^[bits.length] s)) := by
  induction bits generalizing s with
  | nil => simp [polyWalk]
  | cons a bits ih => rw [List.cons_append, polyWalk, ih, polyWalk, xorWords_assoc]; rfl

/-- A polynomial of a linear step is linear. -/
theorem polyWalk_isLinear (h : IsLinear step) (bits : List Bool) : IsLinear (polyWalk step bits) := by
  intro s t
  induction bits generalizing s t with
  | nil => simp [polyWalk]
  | cons b bits ih => simp only [polyWalk, scaleWords_xorWords, h s t, ih, xorWords_assoc, xorWords_left_comm]

/-- A polynomial of a linear step commutes with it (R285). -/
theorem polyWalk_step (h : IsLinear step) (bits : List Bool) (s : Vector Word n) :
    polyWalk step bits (step s) = step (polyWalk step bits s) := by
  induction bits generalizing s with
  | nil => exact h.zero.symm
  | cons b bits ih => rw [polyWalk, polyWalk, h, h.scaleWords, ih]

/-! ### Polynomials of degree below d as words of d bits -/

variable {d : Nat}

/-- The coefficients of a polynomial, the constant one first. -/
def polyBits (q : BitVec d) : List Bool := (List.range d).map q.getLsbD

/-- The polynomial `q`, evaluated at the step and applied to the state. -/
def polyAt (step : Vector Word n → Vector Word n) (q : BitVec d) : Vector Word n → Vector Word n :=
  polyWalk step (polyBits q)

@[simp] theorem polyBits_length (q : BitVec d) : (polyBits q).length = d := by simp [polyBits]

theorem polyAt_xor (p q : BitVec d) (s : Vector Word n) :
    polyAt step (p ^^^ q) s = xorWords (polyAt step p s) (polyAt step q s) := by
  unfold polyAt polyBits
  generalize List.range d = js
  induction js generalizing s with
  | nil => simp [polyWalk]
  | cons j js ih =>
    simp only [List.map_cons, polyWalk, BitVec.getLsbD_xor, scaleWords_xor, ih, xorWords_assoc, xorWords_left_comm]

theorem polyAt_zero (s : Vector Word n) : polyAt step (0 : BitVec d) s = zeroWords n := by
  have := polyAt_xor (step := step) (0 : BitVec d) 0 s
  rwa [BitVec.xor_self, xorWords_self] at this

/-- The coefficients of `x q`: those of `q` one place up, the highest of them beyond the word. -/
theorem false_cons_polyBits (q : BitVec (d + 1)) : false :: polyBits q = polyBits (q <<< 1) ++ [q.getLsbD d] := by
  have shifted : polyBits (q <<< 1) = false :: (List.range d).map q.getLsbD := by
    rw [polyBits, List.range_succ_eq_map, List.map_cons, List.map_map]
    congr 1
    · simp
    · refine List.map_congr_left fun i hi => ?_
      have := List.mem_range.1 hi
      simp [BitVec.getLsbD_shiftLeft]
      omega
  rw [shifted, List.cons_append, polyBits, List.range_succ, List.map_append]
  rfl

/-- `x q` modulo `x^d + p`. -/
def mulX (p q : BitVec d) : BitVec d := (q <<< 1) ^^^ if q.msb then p else 0

/-- `a q` modulo `x^d + p`, `a` given by its coefficients. -/
def mulPoly (p : BitVec d) : List Bool → BitVec d → BitVec d
  | [], _ => 0
  | b :: bits, q => (if b then q else 0) ^^^ mulPoly p bits (mulX p q)

/-- `q^2` modulo `x^d + p`. -/
def squarePoly (p q : BitVec d) : BitVec d := mulPoly p (polyBits q) q

/-- The step satisfies the polynomial `x^d + p`. -/
def Satisfies (step : Vector Word n → Vector Word n) (p : BitVec d) : Prop := ∀ s, step^[d] s = polyAt step p s

theorem polyAt_mulX {p : BitVec (d + 1)} (hp : Satisfies step p) (q : BitVec (d + 1)) (s : Vector Word n) :
    polyAt step (mulX p q) s = polyAt step q (step s) := by
  have reduce : polyAt step (if q.msb then p else 0) s = scaleWords q.msb (step^[d + 1] s) := by
    cases q.msb
    · exact polyAt_zero s
    · exact (hp s).symm
  have top : q.msb = q.getLsbD d := by simp [BitVec.msb_eq_getLsbD_last]
  calc polyAt step (mulX p q) s
      = xorWords (polyAt step (q <<< 1) s) (scaleWords q.msb (step^[d + 1] s)) := by rw [mulX, polyAt_xor, reduce]
    _ = polyWalk step (false :: polyBits q) s := by
      rw [false_cons_polyBits, polyWalk_append, top, polyBits_length, polyAt]
    _ = polyAt step q (step s) := by rw [polyWalk, scaleWords_false, zero_xorWords, polyAt]

theorem polyAt_mulPoly {p : BitVec (d + 1)} (hp : Satisfies step p) (h : IsLinear step) (bits : List Bool)
    (q : BitVec (d + 1)) (s : Vector Word n) :
    polyAt step (mulPoly p bits q) s = polyWalk step bits (polyAt step q s) := by
  induction bits generalizing q with
  | nil => exact polyAt_zero s
  | cons b bits ih =>
    have first : polyAt step (if b then q else 0) s = scaleWords b (polyAt step q s) := by
      cases b
      · exact polyAt_zero s
      · rfl
    rw [mulPoly, polyAt_xor, first, ih, polyAt_mulX hp, polyWalk, polyAt, polyWalk_step h]

/-- Squaring the polynomial doubles the number of steps it stands for. -/
theorem polyAt_squarePoly_iterate {p : BitVec (d + 1)} (hp : Satisfies step p) (h : IsLinear step) {q : BitVec (d + 1)}
    {m : Nat} (hq : polyAt step q = step^[m]) (k : Nat) : polyAt step ((squarePoly p)^[k] q) = step^[m * 2 ^ k] := by
  induction k with
  | zero => simpa using hq
  | succ k ih =>
    funext s
    rw [Function.iterate_succ_apply', squarePoly, polyAt_mulPoly hp h, ← polyAt, ih, Nat.pow_succ, ← Nat.mul_assoc,
      Nat.mul_two, Function.iterate_add_apply]

/-- The polynomial 1 stands for no step. -/
theorem polyAt_one (s : Vector Word n) : polyAt step (1 : BitVec (d + 1)) s = s := by
  have bits : polyBits (1 : BitVec (d + 1)) = true :: polyBits (0 : BitVec d) := by
    rw [polyBits, List.range_succ_eq_map, List.map_cons, List.map_map, polyBits]
    refine congrArg₂ List.cons (by simp) (List.map_congr_left fun i _ => by simp [BitVec.getLsbD_one])
  rw [polyAt, bits, polyWalk, ← polyAt, polyAt_zero, xorWords_zero, scaleWords_true]

/-- Squaring the polynomial x modulo `x^d + p` k times makes the polynomial of `2^k` steps (R284). -/
theorem polyAt_stride {p : BitVec (d + 1)} (hp : Satisfies step p) (h : IsLinear step) (k : Nat) :
    polyAt step ((squarePoly p)^[k] (mulX p 1)) = step^[2 ^ k] := by
  have one : polyAt step (mulX p 1) = step^[1] := by
    funext s
    rw [polyAt_mulX hp, polyAt_one, Function.iterate_one]
  simpa using polyAt_squarePoly_iterate hp h one k

end

/-! ### The same products on numbers, for the kernel to evaluate -/

/-- The coefficients of a polynomial of degree below d that is given as a number. -/
def natBits (d q : Nat) : List Bool := (List.range d).map q.testBit

theorem natBits_succ (d q : Nat) : natBits (d + 1) q = q.testBit 0 :: natBits d (q / 2) := by
  rw [natBits, List.range_succ_eq_map, List.map_cons, List.map_map, natBits]
  exact congrArg _ (List.map_congr_left fun i _ => Nat.testBit_succ q i)

/-- A bit as a coefficient. -/
theorem mod_two_mul (q x : Nat) : q % 2 * x = if q.testBit 0 then x else 0 := by
  rw [Nat.testBit_zero]
  obtain h | h := Nat.mod_two_eq_zero_or_one q <;> simp [h]

section
variable {d : Nat}

/-- `mulX` on numbers. -/
def mulXNat (d p q : Nat) : Nat := Nat.xor (Nat.mod (Nat.shiftLeft q 1) (2 ^ d)) (Nat.mul (Nat.div q (2 ^ (d - 1))) p)

/-- `mulPoly` on numbers, with `k` coefficients of `a`. -/
def mulPolyNat (d p : Nat) : Nat → Nat → Nat → Nat
  | 0, _, _ => 0
  | k + 1, a, q => Nat.xor (Nat.mul (Nat.mod a 2) q) (mulPolyNat d p k (Nat.div a 2) (mulXNat d p q))

/-- `squarePoly` on numbers. -/
def squarePolyNat (d p q : Nat) : Nat := mulPolyNat d p d q q

theorem toNat_mulX (p q : BitVec (d + 1)) : (mulX p q).toNat = mulXNat (d + 1) p.toNat q.toNat := by
  have top : (if q.msb then p else 0).toNat = q.toNat / 2 ^ d * p.toNat := by
    have hq := q.isLt
    rw [BitVec.msb_eq_decide, Nat.add_sub_cancel]
    by_cases h : 2 ^ d ≤ q.toNat
    · have : q.toNat / 2 ^ d = 1 := Nat.div_eq_of_lt_le (by omega) (by omega)
      simp [h, this]
    · simp [h, Nat.div_eq_of_lt (Nat.lt_of_not_le h)]
  rw [mulX, BitVec.toNat_xor, BitVec.toNat_shiftLeft, top]
  rfl

theorem toNat_mulPoly (p : BitVec (d + 1)) (k a : Nat) (q : BitVec (d + 1)) :
    (mulPoly p (natBits k a) q).toNat = mulPolyNat (d + 1) p.toNat k a q.toNat := by
  induction k generalizing a q with
  | zero => rfl
  | succ k ih =>
    have coefficient : (if a.testBit 0 then q else 0).toNat = a % 2 * q.toNat := by
      rw [mod_two_mul, apply_ite BitVec.toNat]
      rfl
    rw [natBits_succ, mulPoly, BitVec.toNat_xor, ih, toNat_mulX, coefficient]
    rfl

theorem toNat_squarePoly_iterate (p q : BitVec (d + 1)) (k : Nat) :
    ((squarePoly p)^[k] q).toNat = (squarePolyNat (d + 1) p.toNat)^[k] q.toNat :=
  Function.Semiconj.iterate_right (f := BitVec.toNat) (fun q => toNat_mulPoly p (d + 1) q.toNat q) k q

/-- The polynomial of `2^k` steps, as a number: x squared k times. -/
def strideNat (d p k : Nat) : Nat := (squarePolyNat d p)^[k] (mulXNat d p 1)

/-- The coefficients of the polynomial of `2^k` steps. -/
theorem polyBits_stride (p : BitVec (d + 1)) (k : Nat) :
    polyBits ((squarePoly p)^[k] (mulX p 1)) = natBits (d + 1) (strideNat (d + 1) p.toNat k) := by
  have one : (mulX p 1).toNat = mulXNat (d + 1) p.toNat 1 := by
    rw [toNat_mulX]
    simp
  rw [strideNat, ← one, ← toNat_squarePoly_iterate]
  rfl

end

/-! ### Tables as numbers -/

/-- The table as a number, its word 0 lowest. -/
def tableNat : List Word → Nat
  | [] => 0
  | t :: table => 2 ^ 64 * tableNat table + t.toNat

/-- The bits the walk takes are the number's, lowest first (R281). -/
theorem natBits_tableNat (table : List Word) : natBits (64 * table.length) (tableNat table) = tableBits table := by
  induction table with
  | nil => rfl
  | cons t table ih =>
    have bit := Nat.testBit_two_pow_mul_add (tableNat table) t.isLt
    have low : (List.range 64).map (tableNat (t :: table)).testBit = (List.range 64).map t.getLsbD :=
      List.map_congr_left fun i hi => by rw [tableNat, bit, if_pos (List.mem_range.1 hi)]; rfl
    have high : ∀ i, (tableNat (t :: table)).testBit (64 + i) = (tableNat table).testBit i := fun i => by
      rw [tableNat, bit, if_neg (by omega), Nat.add_sub_cancel_left]
    have split : 64 * (t :: table).length = 64 + 64 * table.length := by
      rw [List.length_cons, Nat.mul_succ, Nat.add_comm]
    rw [split, natBits, List.range_add, List.map_append, low, List.map_map, tableBits, List.flatMap_cons, ← tableBits,
      ← ih, natBits]
    exact congrArg _ (List.map_congr_left fun i _ => high i)

/-- A jump by a table that holds x to the power `2^k` modulo `x^d + p` is `2^k` steps, if the step satisfies that
polynomial (R284). -/
theorem gf2Jump_eq_iterate {n d k : Nat} {step : Vector Word n → Vector Word n} {p : BitVec (d + 1)}
    (h : IsLinear step) (hp : Satisfies step p) {table : List Word} (hd : 64 * table.length = d + 1)
    (htable : strideNat (d + 1) p.toNat k = tableNat table) (s : Vector Word n) :
    gf2Jump step table s = step^[2 ^ k] s := by
  rw [gf2Jump_eq_polyWalk, ← natBits_tableNat, hd, ← htable, ← polyBits_stride, ← polyAt_stride hp h k, polyAt]

/-- A stride's polynomial squared further is a longer stride's. -/
theorem strideNat_add (d p m k : Nat) : strideNat d p (m + k) = (squarePolyNat d p)^[m] (strideNat d p k) :=
  Function.iterate_add_apply _ m k _

end Sys2Proof.Machine
end

section
/-!
SUPPORT. The jumps of the XOROSHIRO128 variants (42_xoshiro.md R231, R232, R250, R251): the polynomial of degree
128 that each step satisfies, and the tables as powers of x modulo it.
-/

namespace Sys2Proof.Machine

/-! ### Two-word states -/

/-- A property of words that exclusive or keeps holds of every word if it holds of 0 and of the words with one bit
set. -/
theorem word_induction {P : Word → Prop} (zero : P 0) (xor : ∀ x y, P x → P y → P (x ^^^ y))
    (unit : ∀ i < 64, P (BitVec.twoPow 64 i)) (x : Word) : P x := by
  have below : ∀ k ≤ 64, ∀ x : Word, (∀ i, k ≤ i → x.getLsbD i = false) → P x := by
    intro k
    induction k with
    | zero =>
      intro _ x hx
      have : x = 0 := BitVec.eq_of_getLsbD_eq fun i _ => by simp [hx i (Nat.zero_le i)]
      exact this ▸ zero
    | succ k ih =>
      intro hk x hx
      cases hbit : x.getLsbD k with
      | false =>
        refine ih (by omega) x fun i hi => ?_
        obtain rfl | hlt := Nat.eq_or_lt_of_le hi
        · exact hbit
        · exact hx i hlt
      | true =>
        have cleared : P (x ^^^ BitVec.twoPow 64 k) := by
          refine ih (by omega) _ fun i hi => ?_
          rw [BitVec.getLsbD_xor, BitVec.getLsbD_twoPow]
          obtain rfl | hlt := Nat.eq_or_lt_of_le hi
          · simp [hbit]
            omega
          · simp [hx i hlt]
            omega
        have restored := xor _ _ cleared (unit k (by omega))
        rwa [BitVec.xor_assoc, BitVec.xor_self, BitVec.xor_zero] at restored
  exact below 64 (Nat.le_refl 64) x fun i hi => BitVec.getLsbD_of_ge x i hi

/-- Two-word states agree if both words do. -/
theorem pair_ext {s t : Vector Word 2} (h0 : s[0] = t[0]) (h1 : s[1] = t[1]) : s = t := by
  refine Vector.ext fun j hj => ?_
  obtain rfl | rfl : j = 0 ∨ j = 1 := by omega
  · exact h0
  · exact h1

theorem xorWords_pair (a b c d : Word) : xorWords #v[a, b] #v[c, d] = #v[a ^^^ c, b ^^^ d] :=
  pair_ext (getElem_xorWords _ _ _) (getElem_xorWords _ _ _)

/-- A property of two-word states that exclusive or keeps holds of every state if it holds of those with at most one bit
set. -/
theorem pair_induction {P : Vector Word 2 → Prop} (zero : P (zeroWords 2)) (xor : ∀ s t, P s → P t → P (xorWords s t))
    (unit : ∀ i < 64, P #v[BitVec.twoPow 64 i, 0] ∧ P #v[0, BitVec.twoPow 64 i]) (s : Vector Word 2) : P s := by
  have first : ∀ x, P #v[x, 0] := by
    refine word_induction zero (fun x y hx hy => ?_) fun i hi => (unit i hi).1
    have := xor _ _ hx hy
    rwa [xorWords_pair, BitVec.xor_self] at this
  have second : ∀ x, P #v[0, x] := by
    refine word_induction zero (fun x y hx hy => ?_) fun i hi => (unit i hi).2
    have := xor _ _ hx hy
    rwa [xorWords_pair, BitVec.xor_self] at this
  have sum : xorWords #v[s[0], 0] #v[0, s[1]] = s := by
    rw [xorWords_pair]
    exact pair_ext BitVec.xor_zero BitVec.zero_xor
  exact sum ▸ xor _ _ (first s[0]) (second s[1])

/-! ### The step is linear -/

theorem rotl_xor {w : Nat} (x y : BitVec w) (k : Nat) : rotl (x ^^^ y) k = rotl x k ^^^ rotl y k := by
  unfold rotl
  split
  · rfl
  · ext i hi
    simp only [BitVec.getElem_xor, BitVec.getElem_or, BitVec.getElem_shiftLeft, BitVec.getElem_ushiftRight,
      BitVec.getLsbD_xor]
    by_cases hik : i < k
    · simp [hik]
    · simp [hik, BitVec.getLsbD_of_ge, show w ≤ w - k + i by omega]

theorem step128_isLinear (a b c : Nat) : IsLinear (step128 a b c) := by
  refine fun s t => pair_ext ?_ ?_
  · simp only [step128, getElem_xorWords, rotl_xor, BitVec.shiftLeft_xor_distrib, Vector.getElem_mk,
      List.getElem_toArray, List.getElem_cons_zero]
    ac_rfl
  · simp only [step128, getElem_xorWords, rotl_xor, Vector.getElem_mk, List.getElem_toArray, List.getElem_cons_zero,
      List.getElem_cons_succ]
    ac_rfl

/-! ### Sixty-four states side by side, for the kernel to evaluate -/

/-- 64 words side by side. -/
abbrev Lanes := BitVec (64 * 64)

/-- Word i of 64. -/
def lane (i : Nat) (x : Lanes) : Word := x.extractLsb' (64 * i) 64

theorem lane_xor (i : Nat) (x y : Lanes) : lane i (x ^^^ y) = lane i x ^^^ lane i y := BitVec.extractLsb'_xor

theorem lane_zero (i : Nat) : lane i 0 = 0 := by
  simp [lane]

theorem lane_or (i : Nat) (x y : Lanes) : lane i (x ||| y) = lane i x ||| lane i y := BitVec.extractLsb'_or

theorem getLsbD_lane (x : Lanes) {i j : Nat} (hj : j < 64) : (lane i x).getLsbD j = x.getLsbD (64 * i + j) := by
  rw [lane, BitVec.getLsbD_extractLsb', decide_eq_true hj, Bool.true_and]

/-- The lowest 64 - k bits of every lane. -/
def lowLanes (k : Nat) : Lanes := (BitVec.allOnes 64 >>> k).replicate 64

theorem getLsbD_lowLanes (k : Nat) {i j : Nat} (hi : i < 64) (hj : j < 64) :
    (lowLanes k).getLsbD (64 * i + j) = decide (k + j < 64) := by
  have inside : 64 * i + j < 64 * 64 := by omega
  have place : (64 * i + j) % 64 = j := by omega
  rw [lowLanes, BitVec.getLsbD_replicate, decide_eq_true inside, place, Bool.true_and, BitVec.getLsbD_ushiftRight,
    BitVec.getLsbD_allOnes]

/-- Every lane shifted left, the bits that would leave it dropped. -/
def lanesShl (x : Lanes) (k : Nat) : Lanes := (x &&& lowLanes k) <<< k

/-- Every lane shifted right, the bits that would enter it dropped. -/
def lanesShr (x : Lanes) (k : Nat) : Lanes := (x >>> k) &&& lowLanes k

theorem lane_lanesShl {i k : Nat} (hi : i < 64) (hk : k < 64) (x : Lanes) : lane i (lanesShl x k) = lane i x <<< k := by
  refine BitVec.eq_of_getLsbD_eq fun j hj => ?_
  rw [getLsbD_lane _ hj, lanesShl, BitVec.getLsbD_shiftLeft, BitVec.getLsbD_shiftLeft,
    decide_eq_true (show 64 * i + j < 64 * 64 by omega), decide_eq_true hj, BitVec.getLsbD_and]
  by_cases below : j < k
  · by_cases first : i = 0
    · simp [first, below]
    · have masked : 64 * i + j - k = 64 * (i - 1) + (64 + j - k) := by omega
      rw [masked, getLsbD_lowLanes k (by omega) (by omega), decide_eq_false (show ¬ k + (64 + j - k) < 64 by omega),
        Bool.and_false, Bool.and_false, decide_eq_true below, Bool.not_true, Bool.and_false, Bool.false_and]
  · have moved : 64 * i + j - k = 64 * i + (j - k) := by omega
    rw [moved, getLsbD_lowLanes k hi (by omega), decide_eq_true (show k + (j - k) < 64 by omega), Bool.and_true,
      getLsbD_lane _ (by omega), decide_eq_false below, decide_eq_false (show ¬ 64 * i + j < k by omega)]

theorem lane_lanesShr {i : Nat} (hi : i < 64) (x : Lanes) (k : Nat) : lane i (lanesShr x k) = lane i x >>> k := by
  refine BitVec.eq_of_getLsbD_eq fun j hj => ?_
  rw [getLsbD_lane _ hj, lanesShr, BitVec.getLsbD_and, getLsbD_lowLanes k hi hj, BitVec.getLsbD_ushiftRight,
    BitVec.getLsbD_ushiftRight]
  by_cases inside : k + j < 64
  · rw [decide_eq_true inside, Bool.and_true, getLsbD_lane _ inside, Nat.add_left_comm]
  · rw [decide_eq_false inside, Bool.and_false, BitVec.getLsbD_of_ge _ _ (by omega)]

/-- Every lane rotated left. -/
def lanesRotl (x : Lanes) (k : Nat) : Lanes := lanesShl x k ||| lanesShr x (64 - k)

theorem lane_lanesRotl {i k : Nat} (hi : i < 64) (h0 : k ≠ 0) (hk : k < 64) (x : Lanes) :
    lane i (lanesRotl x k) = rotl (lane i x) k := by
  rw [lanesRotl, lane_or, lane_lanesShl hi hk, lane_lanesShr hi, rotl, if_neg h0]

/-- `step128` in every lane. -/
def step128Lanes (a b c : Nat) (s : Lanes × Lanes) : Lanes × Lanes :=
  (lanesRotl s.1 a ^^^ (s.2 ^^^ s.1) ^^^ lanesShl (s.2 ^^^ s.1) b, lanesRotl (s.2 ^^^ s.1) c)

/-- The two-word state in lane i. -/
def laneState (i : Nat) (s : Lanes × Lanes) : Vector Word 2 := #v[lane i s.1, lane i s.2]

theorem laneState_step128Lanes {i a b c : Nat} (hi : i < 64) (ha : a ≠ 0 ∧ a < 64) (hb : b < 64) (hc : c ≠ 0 ∧ c < 64)
    (s : Lanes × Lanes) : laneState i (step128Lanes a b c s) = step128 a b c (laneState i s) := by
  simp only [laneState, step128Lanes, lane_xor, lane_lanesRotl hi ha.1 ha.2, lane_lanesRotl hi hc.1 hc.2,
    lane_lanesShl hi hb]
  rfl

/-- Lane i has bit i set. -/
def unitLanes : Lanes := BitVec.ofNat _ ((2 ^ (65 * 64) - 1) / (2 ^ 65 - 1))

theorem lane_unitLanes : ∀ i < 64, lane i unitLanes = BitVec.twoPow 64 i := by
  decide +kernel

/-- `xorWords` in every lane. -/
def xorPair (s t : Lanes × Lanes) : Lanes × Lanes := (s.1 ^^^ t.1, s.2 ^^^ t.2)

theorem laneState_xorPair (i : Nat) (s t : Lanes × Lanes) :
    laneState i (xorPair s t) = xorWords (laneState i s) (laneState i t) := by
  rw [laneState, laneState, laneState, xorWords_pair, xorPair, lane_xor, lane_xor]

/-- `polyWalk` on pairs, accumulating, and at the end compared with the stepped state. -/
def walkReaches (step : Lanes × Lanes → Lanes × Lanes) : List Bool → Lanes × Lanes → Lanes × Lanes → Bool
  | [], acc, s => acc == s
  | b :: bits, acc, s => walkReaches step bits (bif b then xorPair acc s else acc) (step s)

/-- What 64 walks reach, each lane's does. -/
theorem iterate_eq_of_walkReaches {step : Vector Word 2 → Vector Word 2} {lanesStep : Lanes × Lanes → Lanes × Lanes}
    {i : Nat} (hstep : ∀ s, laneState i (lanesStep s) = step (laneState i s)) {bits : List Bool} {acc s : Lanes × Lanes}
    (h : walkReaches lanesStep bits acc s = true) :
    step^[bits.length] (laneState i s) = xorWords (laneState i acc) (polyWalk step bits (laneState i s)) := by
  induction bits generalizing acc s with
  | nil =>
    have reached : acc = s := by simpa [walkReaches] using h
    rw [reached, polyWalk, xorWords_zero]
    rfl
  | cons b bits ih =>
    have summand : laneState i (bif b then xorPair acc s else acc) =
        xorWords (laneState i acc) (scaleWords b (laneState i s)) := by
      cases b
      · exact (xorWords_zero _).symm
      · exact laneState_xorPair i acc s
    rw [polyWalk, ← xorWords_assoc, ← summand, ← hstep]
    exact hstep s ▸ ih h

/-- The step satisfies `x^128 + p` on the states that have one bit set, by two walks of 64 lanes. -/
def SatisfiesOnUnits (step : Lanes × Lanes → Lanes × Lanes) (p : BitVec 128) : Prop :=
  walkReaches step (polyBits p) (0, 0) (unitLanes, 0) = true ∧
    walkReaches step (polyBits p) (0, 0) (0, unitLanes) = true

/-- What a linear step satisfies on the states that have one bit set it satisfies. -/
theorem satisfies_of_satisfiesOnUnits {a b c : Nat} (ha : a ≠ 0 ∧ a < 64) (hb : b < 64) (hc : c ≠ 0 ∧ c < 64)
    {p : BitVec 128} (h : SatisfiesOnUnits (step128Lanes a b c) p) : Satisfies (step128 a b c) p := by
  have linear := step128_isLinear a b c
  have reached : ∀ {i s}, i < 64 → walkReaches (step128Lanes a b c) (polyBits p) (0, 0) s = true →
      (step128 a b c)^[128] (laneState i s) = polyAt (step128 a b c) p (laneState i s) := by
    intro i s hi hs
    have walk := iterate_eq_of_walkReaches (laneState_step128Lanes hi ha hb hc) hs
    have start : laneState i (0, 0) = zeroWords 2 := pair_ext (lane_zero i) (lane_zero i)
    rw [start, zero_xorWords, polyBits_length] at walk
    exact walk
  refine pair_induction ?_ (fun s t hs ht => ?_) fun i hi => ?_
  · rw [(linear.iterate 128).zero]
    exact (polyWalk_isLinear linear _).zero.symm
  · rw [linear.iterate 128 s t, hs, ht]
    exact (polyWalk_isLinear linear _ s t).symm
  · obtain ⟨first, second⟩ := h
    have unit := lane_unitLanes i hi
    have firstState : laneState i (unitLanes, 0) = #v[BitVec.twoPow 64 i, 0] := pair_ext unit (lane_zero i)
    have secondState : laneState i (0, unitLanes) = #v[0, BitVec.twoPow 64 i] := pair_ext (lane_zero i) unit
    exact ⟨firstState ▸ reached hi first, secondState ▸ reached hi second⟩

/-! ### The polynomials the steps satisfy -/

/-- The step of XOROSHIRO128P and XOROSHIRO128SS satisfies `x^128 + xoro128Poly`. -/
def xoro128Poly : BitVec 128 := 0x0008828E513B43D5095B8F76579AA001

/-- The step of XOROSHIRO128PP satisfies `x^128 + xoro128ppPoly`. -/
def xoro128ppPoly : BitVec 128 := 0x0031BCF2F855D6E58DAE70779760B081

theorem xoro128Poly_satisfied : Satisfies stepXoro128 xoro128Poly := by
  have units : SatisfiesOnUnits (step128Lanes 24 16 37) xoro128Poly := by
    unfold SatisfiesOnUnits
    decide +kernel
  exact satisfies_of_satisfiesOnUnits (by decide) (by decide) (by decide) units

theorem xoro128ppPoly_satisfied : Satisfies stepXoro128pp xoro128ppPoly := by
  have units : SatisfiesOnUnits (step128Lanes 49 21 28) xoro128ppPoly := by
    unfold SatisfiesOnUnits
    decide +kernel
  exact satisfies_of_satisfiesOnUnits (by decide) (by decide) (by decide) units

/-! ### The four tables (R250, R251) -/

theorem strideNat_jumpXoro128 : strideNat 128 xoro128Poly.toNat 64 = tableNat jumpXoro128 := by
  decide +kernel

theorem strideNat_longJumpXoro128 : strideNat 128 xoro128Poly.toNat (32 + 64) = tableNat longJumpXoro128 := by
  rw [strideNat_add, strideNat_jumpXoro128]
  decide +kernel

theorem strideNat_jumpXoro128pp : strideNat 128 xoro128ppPoly.toNat 64 = tableNat jumpXoro128pp := by
  decide +kernel

theorem strideNat_longJumpXoro128pp : strideNat 128 xoro128ppPoly.toNat (32 + 64) = tableNat longJumpXoro128pp := by
  rw [strideNat_add, strideNat_jumpXoro128pp]
  decide +kernel

/-- A jump of XOROSHIRO128P and XOROSHIRO128SS by two words that are a stride's polynomial. -/
theorem gf2Jump_stepXoro128 {k : Nat} {table : List Word} (hlen : 64 * table.length = 128)
    (h : strideNat 128 xoro128Poly.toNat k = tableNat table) (v : Vector Word 2) :
    gf2Jump stepXoro128 table v = stepXoro128^[2 ^ k] v :=
  gf2Jump_eq_iterate (step128_isLinear 24 16 37) xoro128Poly_satisfied hlen h v

/-- A jump of XOROSHIRO128PP by two words that are a stride's polynomial. -/
theorem gf2Jump_stepXoro128pp {k : Nat} {table : List Word} (hlen : 64 * table.length = 128)
    (h : strideNat 128 xoro128ppPoly.toNat k = tableNat table) (v : Vector Word 2) :
    gf2Jump stepXoro128pp table v = stepXoro128pp^[2 ^ k] v :=
  gf2Jump_eq_iterate (step128_isLinear 49 21 28) xoro128ppPoly_satisfied hlen h v

/-- Settles O47: each table is a power of x modulo the polynomial its step satisfies. -/
theorem xoroshiro128JumpIsStride : Obligations.Xoroshiro128JumpIsStride := by
  have jump := gf2Jump_stepXoro128 rfl strideNat_jumpXoro128
  have longJump := gf2Jump_stepXoro128 rfl strideNat_longJumpXoro128
  have jumpPp := gf2Jump_stepXoro128pp rfl strideNat_jumpXoro128pp
  have longJumpPp := gf2Jump_stepXoro128pp rfl strideNat_longJumpXoro128pp
  refine fun s i v => ⟨fun h => ⟨exec_jump_of_holds h ?_, exec_longJump_of_holds h ?_⟩,
    fun h => ⟨exec_jump_of_holds h ?_, exec_longJump_of_holds h ?_⟩,
    fun h => ⟨exec_jump_of_holds h ?_, exec_longJump_of_holds h ?_⟩⟩
  · rw [jumpEngine, jump]
  · rw [longJumpEngine, longJump]
  · rw [jumpEngine, jump]
  · rw [longJumpEngine, longJump]
  · rw [jumpEngine, jumpPp]
  · rw [longJumpEngine, longJumpPp]

end Sys2Proof.Machine
end

section
/-!
SUPPORT. CLONE (40_commands.md R177), and the equivalence it makes (R184): two runs that mirror each other in the source
and the copy.
-/

namespace Sys2Proof.Machine

/-! ### What CLONE leaves -/

/-- CLONE between instances the block has ends as its source allows (R177). -/
theorem exec_clone_inRange {s : State} {i d : BitVec 4} (hi : i.toNat < s.ninst) (hd : d.toNat < s.ninst) :
    exec (.clone i d) s =
      finish s (seededEngine s i >>= fun e => .ok (if d = i then s else s.setEngine d e)) := by
  simp only [exec, execClone, cloneBody, checkInst_pass hi, checkInst_pass hd, bind_ok]
  rfl

/-- Settles O53: by whether the instances exist, whether they differ, and whether the source is seeded. -/
theorem cloneCompletes : Obligations.CloneCompletes := by
  refine ⟨fun s i d hi hd => ⟨fun e he hne => ?_, fun hv heq => ?_, fun hv => ?_⟩, fun s i d h => ?_⟩
  · have source : seededEngine s i = .ok e := seededEngine_ok.2 ⟨congrArg Inst.valid he, congrArg Inst.engine he⟩
    simp [exec_clone_inRange hi hd, source, hne, setEngine_complete]
  · have source : seededEngine s i = .ok (s.inst i).engine := seededEngine_ok.2 ⟨hv, rfl⟩
    rw [exec_clone_inRange hi hd, source, bind_ok, if_pos heq]
    rfl
  · rw [exec_clone_inRange hi hd, seededEngine_error.2 ⟨hv, rfl⟩]
    rfl
  · refine exec_illFormed (i := .clone i d) ?_
    have outOfRange : ¬ (i.toNat < s.ninst ∧ d.toNat < s.ninst) := by omega
    simpa [Instr.wellFormed, instInRange] using outOfRange

/-! ### Mirrored states -/

/-- The states agree in all that a command sees, with `a` of the one in the place of `b` of the other. -/
structure Mirrored (a b : BitVec 4) (x y : State) : Prop where
  mem : x.mem = y.mem
  resets : x.resets = y.resets
  res : x.res = y.res
  params : x.params = y.params
  ninst : x.ninst = y.ninst
  compared : x.inst a = y.inst b
  others : ∀ d, d ≠ a → d ≠ b → x.inst d = y.inst d
  left : a.toNat < x.ninst
  right : b.toNat < x.ninst

namespace Mirrored

variable {a b : BitVec 4} {x y : State} (h : Mirrored a b x y)
include h

theorem opnd (k : Nat) : x.opnd k = y.opnd k := by
  have byte : x.byteAt = y.byteAt := by
    funext j
    simp only [State.byteAt, h.mem, h.resets]
  simp only [State.opnd, byte]

theorem checkInst (d : BitVec 4) : checkInst x d = checkInst y d := by
  unfold Machine.checkInst
  rw [h.ninst]

theorem seededEngine : seededEngine x a = seededEngine y b := by
  unfold Machine.seededEngine
  rw [h.compared]

/-- The command finds the same engine, or fails the same check. -/
theorem engineOf : engineOf x a = engineOf y b := by
  have right : b.toNat < y.ninst := h.ninst ▸ h.right
  simp only [Machine.engineOf, checkInst_pass h.left, checkInst_pass right, h.seededEngine]

theorem advanceEngine (e : Engine) : advanceEngine x e = advanceEngine y e := by
  unfold Machine.advanceEngine
  rw [h.opnd, h.opnd]

theorem setRes (v : Word) : Mirrored a b (x.setRes v) (y.setRes v) := { h with res := rfl }

/-- The compared instances are replaced by the same engine. -/
theorem setEngine (e : Engine) : Mirrored a b (x.setEngine a e) (y.setEngine b e) where
  mem := h.mem
  resets := h.resets
  res := h.res
  params := h.params
  ninst := by simpa using h.ninst
  compared := by rw [State.setEngine_inst_same h.left, State.setEngine_inst_same (h.ninst ▸ h.right)]
  others d ha hb := by rw [State.setEngine_inst_other ha, State.setEngine_inst_other hb, h.others d ha hb]
  left := by simpa using h.left
  right := by simpa using h.right

/-- An instance that is not compared is replaced by the same engine. -/
theorem setEngine_other {d : BitVec 4} (ha : d ≠ a) (hb : d ≠ b) (hd : d.toNat < x.ninst) (e : Engine) :
    Mirrored a b (x.setEngine d e) (y.setEngine d e) where
  mem := h.mem
  resets := h.resets
  res := h.res
  params := h.params
  ninst := by simpa using h.ninst
  compared := by rw [State.setEngine_inst_other ha.symm, State.setEngine_inst_other hb.symm, h.compared]
  others k hka hkb := by
    by_cases hk : k = d
    · subst k
      rw [State.setEngine_inst_same hd, State.setEngine_inst_same (h.ninst ▸ hd)]
    · rw [State.setEngine_inst_other hk, State.setEngine_inst_other hk, h.others k hka hkb]
  left := by simpa using h.left
  right := by simpa using h.right

/-- The place of the copy in the one run is no part of the comparison, nor is that of the source in the other. -/
theorem setEngine_left (hab : a ≠ b) (e : Engine) : Mirrored a b (x.setEngine b e) y where
  mem := h.mem
  resets := h.resets
  res := h.res
  params := h.params
  ninst := by simpa using h.ninst
  compared := by rw [State.setEngine_inst_other hab, h.compared]
  others d ha hb := by rw [State.setEngine_inst_other hb, h.others d ha hb]
  left := by simpa using h.left
  right := by simpa using h.right

theorem symm : Mirrored b a y x where
  mem := h.mem.symm
  resets := h.resets.symm
  res := h.res.symm
  params := h.params.symm
  ninst := h.ninst.symm
  compared := h.compared.symm
  others d hb ha := (h.others d ha hb).symm
  left := h.ninst ▸ h.right
  right := h.ninst ▸ h.left

theorem complete : Mirrored a b x.complete y.complete := { h with }

theorem refuse (e : ErrorCode) : Mirrored a b (x.refuse e) (y.refuse e) := { h with }

/-- The host's write of an operand, the same in both runs. -/
theorem writeOpnd (k : Nat) (v : Word) : Mirrored a b (x.writeOpnd k v) (y.writeOpnd k v) :=
  { h with mem := by rw [State.writeOpnd_mem, State.writeOpnd_mem, h.mem] }

end Mirrored

/-! ### Mirrored commands -/

section
variable {a b : BitVec 4} {x y : State}

/-- Two rules end mirrored: in the same error, or in mirrored states. -/
inductive EndMirrored (a b : BitVec 4) : Body → Body → Prop
  | refused (e : ErrorCode) : EndMirrored a b (.error e) (.error e)
  | ends {u v : State} : Mirrored a b u v → EndMirrored a b (.ok u) (.ok v)

/-- Rules with the same first part end mirrored if their remainders do. -/
theorem EndMirrored.bind {α : Type} {c : Except ErrorCode α} {f f' : α → Body}
    (h : ∀ r, c = .ok r → EndMirrored a b (f r) (f' r)) : EndMirrored a b (c >>= f) (c >>= f') := by
  cases c with
  | ok r => exact h r rfl
  | error e => exact .refused e

/-- Two commands end mirrored: both complete, in mirrored states with the same error code. -/
def OutcomesMirrored (a b : BitVec 4) (o o' : Host.Outcome State Fault Refusal) : Prop :=
  ∃ t u, o = .next t ∧ o' = .next u ∧ Mirrored a b t u ∧ t.err = u.err

theorem EndMirrored.finish {r r' : Body} (h : Mirrored a b x y) (hr : EndMirrored a b r r') :
    OutcomesMirrored a b (finish x r) (finish y r') := by
  cases hr with
  | refused e => exact ⟨_, _, rfl, rfl, h.refuse e, rfl⟩
  | ends huv => exact ⟨_, _, rfl, rfl, huv.complete, rfl⟩

/-- CLONE out of the compared instance: the target is a third instance, or one of the two, where the runs need not
agree. -/
theorem Mirrored.clone_to (h : Mirrored a b x y) (hab : a ≠ b) {d : BitVec 4} (hd : d.toNat < x.ninst) (e : Engine) :
    Mirrored a b (if d = a then x else x.setEngine d e) (if d = b then y else y.setEngine d e) := by
  by_cases ha : d = a
  · subst d
    rw [if_pos rfl, if_neg hab]
    exact (h.symm.setEngine_left hab.symm e).symm
  · by_cases hb : d = b
    · subst d
      rw [if_neg hab.symm, if_pos rfl]
      exact h.setEngine_left hab e
    · rw [if_neg ha, if_neg hb]
      exact h.setEngine_other ha hb hd e

/-- A command applied to the one instance and to the other ends mirrored (R184). -/
theorem exec_mirrored (h : Mirrored a b x y) (hab : a ≠ b) {c : EngineCommand}
    (hc : ∀ src, c = .cloneFrom src → src ≠ a ∧ src ≠ b) :
    OutcomesMirrored a b (exec (c.on a) x) (exec (c.on b) y) := by
  have right : b.toNat < y.ninst := h.ninst ▸ h.right
  cases c with
  | nop => exact EndMirrored.finish h (.ends h)
  | next =>
    refine EndMirrored.finish h ?_
    simp only [nextBody, h.engineOf, h.params]
    exact .bind fun e _ => .ends ((h.setEngine _).setRes _)
  | next32 =>
    refine EndMirrored.finish h ?_
    simp only [next32Body, h.engineOf]
    exact .bind fun e _ => .bind fun _ _ => .ends ((h.setEngine _).setRes _)
  | jump =>
    refine EndMirrored.finish h ?_
    simp only [jumpBody, h.engineOf]
    exact .bind fun e _ => .bind fun _ _ => .ends (h.setEngine _)
  | longJump =>
    refine EndMirrored.finish h ?_
    simp only [longJumpBody, h.engineOf]
    exact .bind fun e _ => .bind fun _ _ => .ends (h.setEngine _)
  | advance =>
    refine EndMirrored.finish h ?_
    simp only [advanceBody, h.engineOf, h.advanceEngine]
    exact .bind fun e _ => .bind fun _ _ => .ends (h.setEngine _)
  | cloneTo d =>
    refine EndMirrored.finish h ?_
    simp only [cloneBody, checkInst_pass h.left, checkInst_pass right, h.checkInst, h.seededEngine, bind_ok]
    exact .bind fun _ hd => .bind fun e _ => .ends (h.clone_to hab (h.ninst ▸ checkInst_ok.1 hd) e)
  | cloneFrom src =>
    obtain ⟨ha, hb⟩ := hc src rfl
    refine EndMirrored.finish h ?_
    have source : Machine.seededEngine x src = Machine.seededEngine y src := by
      unfold Machine.seededEngine
      rw [h.others src ha hb]
    simp only [cloneBody, checkInst_pass h.left, checkInst_pass right, h.checkInst src, source, bind_ok, if_neg ha.symm,
      if_neg hb.symm]
    exact .bind fun _ _ => .bind fun e _ => .ends (h.setEngine e)
  | cloneSelf =>
    refine EndMirrored.finish h ?_
    simp only [cloneBody, checkInst_pass h.left, checkInst_pass right, h.seededEngine, bind_ok, if_true]
    exact .bind fun _ _ => .ends h
  | stateRead =>
    refine EndMirrored.finish h ?_
    simp only [stateReadBody, h.engineOf, h.opnd]
    refine .bind fun e _ => ?_
    split
    · exact .ends (h.setRes _)
    · exact .refused _
  | stateWrite =>
    refine EndMirrored.finish h ?_
    simp only [stateWriteBody, h.engineOf, h.opnd]
    refine .bind fun e _ => ?_
    split
    · exact .ends (h.setEngine _)
    · exact .refused _
  | query =>
    refine EndMirrored.finish h ?_
    simp only [queryBody, h.engineOf]
    exact .bind fun e _ => .ends (h.setRes _)

/-- A sequence applied to the one instance and to the other answers alike and ends mirrored (R184). -/
theorem runOn_mirrored (hab : a ≠ b) {acts : List SequenceAct}
    (hacts : ∀ src, .command (.cloneFrom src) ∈ acts → src ≠ a ∧ src ≠ b) (h : Mirrored a b x y) :
    ∃ p q, runOn a acts x = some p ∧ runOn b acts y = some q ∧ p.2 = q.2 ∧ Mirrored a b p.1 q.1 := by
  induction acts generalizing x y with
  | nil => exact ⟨_, _, rfl, rfl, rfl, h⟩
  | cons act acts ih =>
    have rest : ∀ src, .command (.cloneFrom src) ∈ acts → src ≠ a ∧ src ≠ b :=
      fun src hsrc => hacts src (List.mem_cons_of_mem act hsrc)
    cases act with
    | operand k v => exact ih rest (h.writeOpnd k.toNat v)
    | command c =>
      have first : ∀ src, c = .cloneFrom src → src ≠ a ∧ src ≠ b :=
        fun src hsrc => hacts src (hsrc ▸ List.mem_cons_self)
      obtain ⟨t, u, ht, hu, htu, herr⟩ := exec_mirrored h hab first
      obtain ⟨p, q, hp, hq, answers, ends⟩ := ih rest htu
      refine ⟨(p.1, (t.res, t.err) :: p.2), (q.1, (u.res, u.err) :: q.2), ?_, ?_, ?_, ends⟩
      · simp only [runOn, ht, hp, Option.map_some]
      · simp only [runOn, hu, hq, Option.map_some]
      · simp only [htu.res, herr, answers]

end

/-- Settles O54: CLONE leaves a state that mirrors itself in the source and the copy, and every command keeps that. -/
theorem cloneEquivalence : Obligations.CloneEquivalence := by
  intro s a b e ha hb hab
  obtain ⟨hlt, hinst⟩ := ha
  have cloned : exec (.clone a b) s = .next (s.stepped b e) := (cloneCompletes.1 s a b hlt hb).1 e hinst hab.symm
  have source : (s.setEngine b e).inst a = { valid := true, engine := e } := by
    rw [State.setEngine_inst_other hab, hinst]
  have mirrored : Mirrored a b (s.setEngine b e) (s.setEngine b e) :=
    ⟨rfl, rfl, rfl, rfl, rfl, source.trans (State.setEngine_inst_same hb e).symm, fun _ _ _ => rfl, by simpa using hlt,
      by simpa using hb⟩
  refine ⟨_, cloned, fun acts hacts => ?_⟩
  obtain ⟨p, q, hp, hq, answers, ends⟩ := runOn_mirrored hab hacts mirrored.complete
  exact ⟨p, q, hp, hq, answers, ends.compared, ends.mem, ends.others⟩

end Sys2Proof.Machine
end

section
/-!
SUPPORT. The step and NOP (40_commands.md R160, R181), and that every command completes (70_reset_and_hazards.md R532).
-/

namespace Sys2Proof.Machine

/-- Every command ends by its rule, from the state its draws leave (R160). -/
theorem exec_eq_finish (i : Instr) (s : State) : ∃ n b, exec i s = finish (s.takeDraws n) b := by
  obtain ⟨n, b, -, -, h, -, -⟩ := exec_endsAlike_self i s
  exact ⟨n, b, h⟩

/-- A command that ends has BUSY = 0, whatever its rule says (R38, R160). -/
theorem finish_completes (s : State) (b : Body) : ∃ t, finish s b = .next t ∧ t.busy = false := by
  cases b with
  | ok u => exact ⟨_, rfl, rfl⟩
  | error e => exact ⟨_, rfl, rfl⟩

theorem exec_completes (i : Instr) (s : State) : ∃ t, exec i s = .next t ∧ t.busy = false := by
  obtain ⟨n, b, h⟩ := exec_eq_finish i s
  exact h ▸ finish_completes _ b

/-- A word that decodes runs its command (R160). -/
theorem runCommand_of_decode {w : Word} {i : Instr} (h : decode w = .ok i) (s : State) : runCommand s w = exec i s := by
  simp only [runCommand, h]

/-- A word that is no command is refused (R486). -/
theorem runCommand_of_decode_error {w : Word} {e : DecodeError} (h : decode w = .error e) (s : State) :
    runCommand s w = .next (s.refusedAs 5) := by
  simp only [runCommand, h]
  rfl

/-- Settles O23: every command ends by its rule, and a word that is no command is refused. -/
theorem commandsComplete : Obligations.CommandsComplete := by
  refine ⟨exec_completes, fun w s => ?_⟩
  cases h : decode w with
  | ok i => exact runCommand_of_decode h s ▸ exec_completes i s
  | error e => exact ⟨_, runCommand_of_decode_error h s, rfl⟩

/-- The step executes a command word that is due (R160). -/
theorem step_of_due {s : State} {w : Word} (h : s.due w) : step s = runCommand s w := by
  obtain ⟨hrun, hheld⟩ := h
  cases hinbox : s.inbox with
  | nil => simp only [step, hrun, hinbox]
  | cons e rest => exact step_held hrun hinbox (hheld e rest hinbox)

/-- Settles O5: the step executes the word that is due, and the word is decoded or refused. -/
theorem stepRunsDecodedCommand : Obligations.StepRunsDecodedCommand := by
  intro s w h
  exact ⟨fun i hi => (step_of_due h).trans (runCommand_of_decode hi s),
    fun e he => (step_of_due h).trans (runCommand_of_decode_error he s)⟩

/-- The only word of opcode 0 that is a command is 0, which is NOP (R123, R181). -/
theorem eq_zero_of_decode {w : Word} {i : Instr} (h : decode w = .ok i) (hop : fieldOp w = 0) : w = 0 := by
  have hw := decode_eq_ok_iff_encode.1 h
  have nop : opcodeOf i = 0 := by rw [← fieldOp_encode i, hw, hop]
  cases i with
  | nop => rw [← hw]; decide
  | _ => simp [opcodeOf] at nop

/-- Settles O25: NOP's rule has no effect, and no other word of opcode 0 decodes. -/
theorem nopCompletes : Obligations.NopCompletes := by
  refine ⟨fun s => rfl, fun s w hop => ?_⟩
  by_cases hw : w = 0
  · have nop : decode w = .ok .nop := decode_eq_ok_iff_encode.2 (hw ▸ by decide)
    rw [if_pos hw, runCommand_of_decode nop]
    rfl
  · rw [if_neg hw]
    cases h : decode w with
    | ok i => exact absurd (eq_zero_of_decode h hop) hw
    | error e => exact runCommand_of_decode_error h s

end Sys2Proof.Machine
end

section
/-!
SUPPORT. SEED, SEED_KEY and SEED_ENTROPY (40_commands.md R161 to R170): the elements, the two rules they pass, and the
engine they make; and the two passes of `mt_by_array` turn by turn (45_mt19937.md R342, R352).
-/

namespace Sys2Proof.Machine

/-! ### The elements -/

/-- An element of 64 bits is its operand (R162). -/
theorem truncElement_64 (x : Word) : truncElement 64 x = x := by
  rw [truncElement, Nat.mod_eq_of_lt x.isLt, BitVec.ofNat_toNat, BitVec.setWidth_eq]

/-- An element of 32 bits is the low half of its operand (R162). -/
theorem setWidth_truncElement_32 (x : Word) : (truncElement 32 x).setWidth 32 = x.setWidth 32 := by
  refine BitVec.eq_of_toNat_eq ?_
  simp only [truncElement, BitVec.toNat_setWidth, BitVec.toNat_ofNat]
  omega

theorem truncElement_32_eq_zero_iff (x : Word) : truncElement 32 x = 0 ↔ x.setWidth 32 = (0 : Word32) := by
  rw [← BitVec.toNat_inj, ← BitVec.toNat_inj]
  simp only [truncElement, BitVec.toNat_setWidth, BitVec.toNat_ofNat, BitVec.ofNat_eq_ofNat]
  omega

/-- Elements pass the zero rule if one of them is not 0 (R164). -/
theorem allZero_eq_false {e : List Word} : allZero e = false ↔ ∃ x ∈ e, x ≠ 0 := by
  simp [allZero]

/-- Only MT19937 has elements of 32 bits (R162). -/
theorem elementWidth_of_not_isMt {v : Variant} (h : isMt v = false) : elementWidth v = 64 := by
  have other : v ≠ .mt19937 := by
    rintro rfl
    cases h
  rw [elementWidth, if_neg other]

/-- The stream's output j is the finalizer of the state j + 1 steps on (R221, R224). -/
theorem splitMixStream_eq_map (x : Word) (n : Nat) : splitMixStream x n =
    (List.range n).map fun j => splitMixOut (x + splitMixGamma * BitVec.ofNat 64 (j + 1)) := by
  induction n generalizing x with
  | zero => rfl
  | succ n ih =>
    have later : ∀ j, splitMixStep x + splitMixGamma * BitVec.ofNat 64 (j + 1) =
        x + splitMixGamma * BitVec.ofNat 64 (j + 1 + 1) := by
      intro j
      rw [splitMixStep, BitVec.ofNat_add (j + 1) 1, show BitVec.ofNat 64 1 = (1 : Word) from rfl]
      ring
    have first : splitMixStep x = x + splitMixGamma * BitVec.ofNat 64 (0 + 1) := by simp [splitMixStep]
    rw [List.range_succ_eq_map, List.map_cons, List.map_map, splitMixStream]
    simp only [splitMixNext, ih, later]
    rw [first]
    rfl

/-- Elements cut to `n`, or filled up to `n` from the stream of the last (R165). -/
theorem truncateOrPad_eq (n : Nat) (us : List Word) : truncateOrPad n us = us.take n ++
    (List.range (n - us.length)).map fun j =>
      splitMixOut (us.getLast?.getD 0 + splitMixGamma * BitVec.ofNat 64 (j + 1)) := by
  unfold truncateOrPad
  split
  · rw [Nat.sub_eq_zero_of_le ‹_›]
    simp
  · rw [splitMixStream_eq_map, List.getLastD_eq_getLast?, List.take_of_length_le (by omega)]

/-! ### The engine that elements make -/

/-- A variant without a twist array is made from as many elements as it takes (R165, R166). -/
theorem seededFrom_of_not_isMt {v : Variant} (h : isMt v = false) (us : List Word) :
    seededFrom v us = initEngine v (truncateOrPad (seedCount v) us) := by
  simp [seededFrom, h]

/-- The MT variants take one element (R182). -/
theorem seedCount_of_isMt {v : Variant} (h : isMt v = true) : seedCount v = 1 := by
  obtain rfl | rfl : v = .mt19937 ∨ v = .mt19937w64 := by simpa [isMt] using h
  · rfl
  · rfl

/-- As many elements as the variant takes are neither cut nor filled up (R165, R166). -/
theorem seededFrom_of_length {v : Variant} {us : List Word} (h : us.length = seedCount v) :
    seededFrom v us = initEngine v us := by
  cases hmt : isMt v with
  | false => rw [seededFrom_of_not_isMt hmt, truncateOrPad, if_pos (by omega), List.take_of_length_le (by omega)]
  | true =>
    obtain ⟨x, rfl⟩ := List.length_eq_one_iff.1 (h.trans (seedCount_of_isMt hmt))
    simp [seededFrom, hmt]

/-- As many elements as the variant takes are all checked (R164). -/
theorem checkedElements_of_length {v : Variant} {us : List Word} (h : us.length = seedCount v) :
    checkedElements v us = us := by
  unfold checkedElements
  split
  · rfl
  · exact List.take_of_length_le (by omega)

/-- A seed that passes the length rule and whose checked elements are all 0 is refused (R164). -/
theorem seedCommon_of_allZero {v : Variant} {e : List Word} {lok : Bool} (hlen : e.length = seedCount v ∨ lok = true)
    (hzero : allZero (checkedElements v e) = true) : seedCommon v e false lok = .error .invalidSeed := by
  have lengthRule : lengthOk v e.length lok = true := by simpa [lengthOk] using hlen
  simp only [seedCommon, lengthRule, hzero, check_true, bind_ok, Bool.not_true, Bool.or_false, check_false, bind_error]

/-! ### How the seeding commands end -/

section
variable {s : State} {var : BitVec 6} {zok lok : Bool} {cnt : BitVec 10} {i : BitVec 4} {v : Variant} {us : List Word}

/-- SEED on the operands' elements ends as the common path does (R161). -/
theorem exec_seed {e : Engine} (hi : i.toNat < s.ninst) (hv : variantOfCode? var = some v)
    (hlen : us.length = cnt.toNat) (hus : s.operands us) (he : seedCommon v (us.map (truncElement (elementWidth v))) zok lok = .ok e) :
    exec (.seed var zok lok cnt i) s = .next (s.stepped i e) := by
  have hbody : seedBody s var zok lok cnt i = .ok (s.setEngine i e) := by
    simp only [seedBody, seedVariant_ok.2 ⟨hi, hv⟩, ← hlen, readOpnds_eq hus, he, bind_ok, pure_eq_ok]
  simp only [exec, execSeed, hbody]
  rfl

/-- SEED_KEY on a key that passes the zero rule (R168). -/
theorem exec_seedKey (hi : i.toNat < s.ninst) (hv : variantOfCode? var = some v) (hmt : isMt v = true)
    (hlen : us.length = cnt.toNat) (hcnt : cnt ≠ 0) (hus : s.operands us)
    (hzero : allZero (us.map (truncElement (elementWidth v))) = false ∨ zok = true) :
    exec (.seedKey var zok cnt i) s = .next (s.stepped i (mtKeyed v (us.map (truncElement (elementWidth v))))) := by
  have zeroRule : (!allZero (us.map (truncElement (elementWidth v))) || zok) = true := by simpa using hzero
  have hbody : seedKeyBody s var zok cnt i =
      .ok (s.setEngine i (mtKeyed v (us.map (truncElement (elementWidth v))))) := by
    simp only [seedKeyBody, seedVariant_ok.2 ⟨hi, hv⟩, hmt, decide_eq_true hcnt, ← hlen, readOpnds_eq hus, zeroRule,
      check_true, bind_ok, pure_eq_ok]
  simp only [exec, execSeedKey, hbody]
  rfl

end

/-- Settles O26: the operands are the elements, and the elements that survive truncation are checked. -/
theorem seedCompletes : Obligations.SeedCompletes := by
  intro s var zok lok cnt i v us hi hv hnot hlen hus hcount hzero last fill
  have notMt : isMt v = false := Bool.eq_false_iff.2 fun h => hnot (isMt_iff_mem.1 h)
  have elements : us.map (truncElement (elementWidth v)) = us := by
    rw [elementWidth_of_not_isMt notMt, funext truncElement_64, List.map_id']
  refine exec_seed hi hv hlen hus ?_
  have lengthRule : us.length = seedCount v ∨ lok = true := hlen ▸ hcount
  have zeroRule : allZero (checkedElements v us) = false ∨ zok = true := by
    rw [checkedElements, notMt]
    exact hzero.imp_left allZero_eq_false.2
  rw [elements, seedCommon_pass lengthRule zeroRule, seededFrom_of_not_isMt notMt]
  exact congrArg (fun u => Except.ok (initEngine v u)) (truncateOrPad_eq _ us)

/-- The MT variants check every element (R164). -/
theorem allZero_checkedElements_of_isMt {v : Variant} (h : isMt v = true) (e : List Word) :
    allZero (checkedElements v e) = allZero e := by
  rw [checkedElements, if_pos h]

/-- MT19937's zero rule looks at the low halves of the operands (R162, R164). -/
theorem allZero_map_truncElement_32 {us : List Word} {zok : Bool}
    (h : (∃ x ∈ us, x.setWidth 32 ≠ (0 : Word32)) ∨ zok = true) :
    allZero (us.map (truncElement 32)) = false ∨ zok = true := by
  refine h.imp_left ?_
  rintro ⟨x, hx, hne⟩
  exact allZero_eq_false.2 ⟨_, List.mem_map_of_mem hx, fun h0 => hne ((truncElement_32_eq_zero_iff x).1 h0)⟩

/-- The low halves of the elements are those of the operands (R162). -/
theorem map_setWidth_truncElement_32 (us : List Word) :
    (us.map (truncElement 32)).map (fun x => x.setWidth 32) = us.map fun x => (x.setWidth 32 : Word32) := by
  rw [List.map_map]
  exact List.map_congr_left fun x _ => setWidth_truncElement_32 x

/-- Settles O27: by the number of elements. -/
theorem seedMersenneCompletes : Obligations.SeedMersenneCompletes := by
  refine ⟨fun s zok lok cnt i us hi hlen hus hcount hzero => ?_, fun s zok lok cnt i us hi hlen hus hcount hzero => ?_⟩
  · refine exec_seed (v := .mt19937) hi (by decide) hlen hus ?_
    have lengthRule : (us.map (truncElement 32)).length = seedCount .mt19937 ∨ lok = true := by
      rw [List.length_map, hlen]
      exact hcount
    have zeroRule := allZero_map_truncElement_32 hzero
    rw [← allZero_checkedElements_of_isMt (v := .mt19937) rfl] at zeroRule
    refine (seedCommon_pass lengthRule zeroRule).trans ?_
    match us with
    | [] => rfl
    | [x] => simp [seededFrom, isMt, initEngine, mt32Seeded, setWidth_truncElement_32]
    | x :: y :: us =>
      exact congrArg (fun key => Except.ok (Engine.mt19937 (mtByArray mt32Params 624 key)))
        (map_setWidth_truncElement_32 (x :: y :: us))
  · refine exec_seed (v := .mt19937w64) hi (by decide) hlen hus ?_
    have elements : us.map (truncElement 64) = us := by rw [funext truncElement_64, List.map_id']
    have lengthRule : us.length = seedCount .mt19937w64 ∨ lok = true := hlen ▸ hcount
    have zeroRule : allZero (checkedElements .mt19937w64 us) = false ∨ zok = true := by
      rw [allZero_checkedElements_of_isMt rfl]
      exact hzero.imp_left allZero_eq_false.2
    show seedCommon .mt19937w64 (us.map (truncElement 64)) zok lok = _
    rw [elements, seedCommon_pass lengthRule zeroRule]
    match us with
    | [] => rfl
    | [x] => rfl
    | x :: y :: us => rfl

/-- Settles O30: the elements drawn are as many as the variant takes, and the zero rule is the only one that can refuse
them. -/
theorem seedEntropyCompletes : Obligations.SeedEntropyCompletes := by
  intro s var i v hi hv drawn e
  have elements : (s.entropyWords (seedCount v)).map (truncElement (elementWidth v)) = e := by
    rw [State.entropyWords, List.map_map]
    rfl
  have count : e.length = seedCount v := by simp [e]
  have ends : exec (.seedEntropy var i) s =
      finish drawn ((seedCommon v e false false).map fun g => drawn.setEngine i g) := by
    simp only [exec, execSeedEntropy, seedVariant_ok.2 ⟨hi, hv⟩, seedFromEntropy, elements]
    rfl
  have checked : allZero (checkedElements v e) = e.all fun x => decide (x = 0) := by
    rw [checkedElements_of_length count, allZero]
  by_cases zero : (e.all fun x => decide (x = 0)) = true
  · rw [ends, if_pos zero, seedCommon_of_allZero (.inl count) (checked.trans zero)]
    rfl
  · have notZero : allZero (checkedElements v e) = false := checked.trans (Bool.eq_false_iff.2 zero)
    rw [ends, if_neg zero, seedCommon_pass (.inl count) (.inl notZero), seededFrom_of_length count]
    rfl

/-! ### The two passes of `mt_by_array` -/

section
variable {w n : Nat} (P : MtParams w)

/-- The word that a turn of the first pass writes at index i (R342, R352). -/
def keyWordFirst (key : List (BitVec w)) (mt : Vector (BitVec w) n) (i j : Nat) : BitVec w :=
  (mtAt mt i ^^^ (mtMix P mt i * P.keyMult1)) + key.getD j 0 + BitVec.ofNat w j

/-- A turn of the first loop is a turn of the first pass (R342, R352). -/
theorem keyTurnFirst_eq (key : List (BitVec w)) (mt : Vector (BitVec w) n) (i j : Nat) :
    keyTurnFirst P.initShift P.keyMult1 key (mt, i, j) =
      ((mtNextIndex (mt.setIfInBounds i (keyWordFirst P key mt i j)) i).1,
        (mtNextIndex (mt.setIfInBounds i (keyWordFirst P key mt i j)) i).2,
        if j + 1 ≥ key.length then 0 else j + 1) := by
  simp only [keyTurnFirst, mtNextIndex, keyWordFirst, mtMix, mtAt]
  split <;> rfl

/-- The first pass is that many turns of its loop (R342, R352). -/
theorem mtFirstPass_eq_iterate (key : List (BitVec w)) (count i j : Nat) (mt : Vector (BitVec w) n) :
    mtFirstPass P key count i j mt =
      (((keyTurnFirst P.initShift P.keyMult1 key)^[count] (mt, i, j)).1,
        ((keyTurnFirst P.initShift P.keyMult1 key)^[count] (mt, i, j)).2.1) := by
  induction count generalizing i j mt with
  | zero => rfl
  | succ count ih =>
    rw [mtFirstPass, ih, Function.iterate_succ_apply, keyTurnFirst_eq]
    rfl

/-- A turn of the second loop is a turn of the second pass (R342, R352). -/
theorem keyTurnSecond_eq (mt : Vector (BitVec w) n) (i : Nat) : keyTurnSecond P.initShift P.keyMult2 (mt, i) =
    mtNextIndex (mt.setIfInBounds i ((mtAt mt i ^^^ (mtMix P mt i * P.keyMult2)) - BitVec.ofNat w i)) i := rfl

/-- The second pass is that many turns of its loop (R342, R352). -/
theorem mtSecondPass_eq_iterate (count i : Nat) (mt : Vector (BitVec w) n) :
    mtSecondPass P count i mt = ((keyTurnSecond P.initShift P.keyMult2)^[count] (mt, i)).1 := by
  induction count generalizing i mt with
  | zero => rfl
  | succ count ih =>
    rw [mtSecondPass, ih, Function.iterate_succ_apply, keyTurnSecond_eq]

/-- `mt_by_array` as turns of its two loops (R342, R352). -/
theorem mtByArray_eq_turns (key : List (BitVec w)) :
    let first := (keyTurnFirst P.initShift P.keyMult1 key)^[max n key.length] ((mtGenrand P n 19650218).mt, 1, 0)
    let second := (keyTurnSecond P.initShift P.keyMult2)^[n - 1] (first.1, first.2.1)
    mtByArray P n key = ⟨second.1.setIfInBounds 0 (BitVec.twoPow w (w - 1)), Fin.last n⟩ := by
  simp only [mtByArray, mtFirstPass_eq_iterate, mtSecondPass_eq_iterate]
  rfl

/-- The first word `mt_by_array` leaves is its most significant bit alone (R342, R352). -/
theorem mtByArray_first (key : List (BitVec w)) (h : 0 < n) :
    (mtByArray P n key).mt[0] = BitVec.twoPow w (w - 1) := by
  simp [mtByArray, mtFresh]

end

/-- Settles O29: the key is the operands' elements, and each loop is its pass turn by turn. -/
theorem seedKeyCompletes : Obligations.SeedKeyCompletes := by
  refine ⟨fun s zok cnt i us hi hlen hcnt hus hzero => ?_, fun s zok cnt i us hi hlen hcnt hus hzero => ?_,
    fun key => ⟨mtByArray_first _ key (by decide), rfl⟩, fun key => ⟨mtByArray_first _ key (by decide), rfl⟩,
    fun key _ => mtByArray_eq_turns mt32Params key, fun key _ => mtByArray_eq_turns mt64Params key⟩
  · have ends := exec_seedKey (var := 0x18) (v := .mt19937) hi (by decide) rfl hlen hcnt hus
      (allZero_map_truncElement_32 hzero)
    refine ends.trans ?_
    exact congrArg (fun key => Host.Outcome.next (s.stepped i (.mt19937 (mtByArray mt32Params 624 key))))
      (map_setWidth_truncElement_32 us)
  · have elements : us.map (truncElement (elementWidth .mt19937w64)) = us := by
      rw [show elementWidth .mt19937w64 = 64 from rfl, funext truncElement_64, List.map_id']
    have zeroRule : allZero (us.map (truncElement (elementWidth .mt19937w64))) = false ∨ zok = true := by
      rw [elements]
      exact hzero.imp_left allZero_eq_false.2
    have ends := exec_seedKey (var := 0x19) (v := .mt19937w64) hi (by decide) rfl hlen hcnt hus zeroRule
    rw [elements] at ends
    exact ends

end Sys2Proof.Machine
end

section
/-!
SUPPORT. NEXT, NEXT32, JUMP and LONG_JUMP on each variant (40_commands.md R171 to R175, R182).
-/

namespace Sys2Proof.Machine

/-! ### Native outputs -/

/-- An unseeded instance that the block has is refused (R485). -/
theorem exec_unseeded_of_inRange {c : Instr} {s : State} {i : BitVec 4} (hneeds : neededInst c = some i)
    (hwf : c.wellFormed s.ninst = instInRange s.ninst i) (hi : i.toNat < s.ninst) (hv : (s.inst i).valid = false) :
    exec c s = .next (s.refusedAs 4) :=
  exec_unseeded hneeds (hwf.trans (decide_eq_true hi)) hv

/-- The variants whose native output has 32 bits (R182). -/
theorem native32_iff_mem {v : Variant} : native32 v = true ↔ v ∈ [Variant.pcg32, .mt19937] := by
  simp [native32]

/-- A step keeps the variant (R11). -/
theorem engineVariant_nextNative (e : Engine) : engineVariant (nextNative e).2 = engineVariant e := by
  cases e <;> simp only [nextNative, engineVariant]

/-- A native output of 32 bits is zero-extended (R172, R173). -/
theorem nextNative_lt {e : Engine} (h : native32 (engineVariant e) = true) : (nextNative e).1.toNat < 2 ^ 32 := by
  have extended : ∀ x : Word32, (x.setWidth 64 : Word).toNat < 2 ^ 32 := fun x => by
    rw [BitVec.toNat_setWidth]
    omega
  cases e with
  | pcg32 s => exact extended _
  | mt19937 s => exact extended _
  | _ => cases h

/-- Two native outputs in the halves of a word (R172). -/
theorem or_shiftLeft_eq_append {x y : Word} (hx : x.toNat < 2 ^ 32) (hy : y.toNat < 2 ^ 32) :
    x ||| (y <<< 32) = (y.setWidth 32 ++ x.setWidth 32 : Word) := by
  refine BitVec.eq_of_toNat_eq ?_
  have fits : y.toNat <<< 32 < 2 ^ 64 := by
    rw [Nat.shiftLeft_eq]
    omega
  rw [BitVec.toNat_or, BitVec.toNat_shiftLeft, Nat.mod_eq_of_lt fits, Nat.or_comm, ← Nat.shiftLeft_add_eq_or_of_lt hx,
    Nat.shiftLeft_eq, toNat_append_eq_add, BitVec.toNat_setWidth, BitVec.toNat_setWidth, Nat.mod_eq_of_lt hx,
    Nat.mod_eq_of_lt hy]

section
variable {s : State} {i : BitVec 4} {e : Engine}

/-- NEXT on a seeded instance (R171). -/
theorem exec_next_of_holds (h : s.holds i e) :
    exec (.next i) s = .next (s.answered i (nextRaw s.params.raw64Pack e).2 (nextRaw s.params.raw64Pack e).1) := by
  simp [exec, execNext, nextBody, engineOf_of_holds h, setRes_setEngine_complete]

/-- NEXT32 on a seeded instance whose native output has 32 bits (R173). -/
theorem exec_next32_of_holds (h : s.holds i e) (h32 : native32 (engineVariant e) = true) :
    exec (.next32 i) s = .next (s.answered i (nextNative e).2 (nextNative e).1) := by
  simp [exec, execNext32, next32Body, engineOf_of_holds h, h32, setRes_setEngine_complete]

end

/-- Settles O33: one output, or two put side by side. -/
theorem nextCompletes : Obligations.NextCompletes := by
  refine ⟨fun s i e h hv => ?_, fun s i e h hv => ?_, fun s i => exec_unseeded_of_inRange rfl rfl, rfl⟩
  · have one : native32 (engineVariant e) = false := Bool.eq_false_iff.2 fun h32 => hv (native32_iff_mem.1 h32)
    rw [exec_next_of_holds h, nextRaw, one]
    rfl
  · intro o1 o2 low high
    have two : native32 (engineVariant e) = true := native32_iff_mem.2 hv
    have first : o1.1.toNat < 2 ^ 32 := nextNative_lt two
    have second : o2.1.toNat < 2 ^ 32 := nextNative_lt ((congrArg native32 (engineVariant_nextNative e)).trans two)
    have packed : packOutputs s.params.raw64Pack o1.1 o2.1 = high ++ low := by
      cases hp : s.params.raw64Pack with
      | lowFirst => simpa [packOutputs, low, high, hp] using or_shiftLeft_eq_append first second
      | highFirst => simpa [packOutputs, low, high, hp] using or_shiftLeft_eq_append second first
    rw [exec_next_of_holds h, nextRaw, if_pos two, ← packed]

/-- Settles O34: the capability check is that the native output has 32 bits. -/
theorem next32Completes : Obligations.Next32Completes := by
  refine ⟨fun s i e h hv => ?_, fun s i e h hv => ?_, fun s i => exec_unseeded_of_inRange rfl rfl⟩
  · have h32 := native32_iff_mem.2 hv
    exact ⟨nextNative_lt h32, exec_next32_of_holds h h32⟩
  · have other : native32 (engineVariant e) = false := Bool.eq_false_iff.2 fun h32 => hv (native32_iff_mem.1 h32)
    simp only [exec, execNext32, next32Body, engineOf_of_holds h, bind_ok, other, check_false, bind_error]
    rfl

/-! ### Jumps -/

/-- JUMP keeps the variant (R174). -/
theorem engineVariant_of_jumpEngine {e e' : Engine} (h : jumpEngine e = some e') :
    engineVariant e' = engineVariant e := by
  cases e
  all_goals simp only [jumpEngine, Option.some.injEq, reduceCtorEq] at h
  all_goals
    subst h
    simp only [engineVariant]

/-- LONG_JUMP keeps the variant (R175). -/
theorem engineVariant_of_longJumpEngine {e e' : Engine} (h : longJumpEngine e = some e') :
    engineVariant e' = engineVariant e := by
  cases e
  all_goals simp only [longJumpEngine, Option.some.injEq, reduceCtorEq] at h
  all_goals
    subst h
    simp only [engineVariant]

/-- The variants that define JUMP (R182). -/
theorem isSome_jumpEngine (e : Engine) : (jumpEngine e).isSome = true ↔
    engineVariant e ∉ [Variant.splitmix64, .mt19937, .mt19937w64, .sfc64, .jsf64] := by
  cases e <;> simp [jumpEngine, engineVariant]

/-- The variants that define LONG_JUMP (R182). -/
theorem isSome_longJumpEngine (e : Engine) : (longJumpEngine e).isSome = true ↔
    engineVariant e ∉ [Variant.splitmix64, .mt19937, .mt19937w64, .sfc64, .jsf64, .gmwc128] := by
  cases e <;> simp [longJumpEngine, engineVariant]

/-- JUMP and LONG_JUMP on a variant that has both. -/
theorem exec_jumps_of_holds {s : State} {i : BitVec 4} {e e' e'' : Engine} (h : s.holds i e)
    (hj : jumpEngine e = some e') (hl : longJumpEngine e = some e'') :
    exec (.jump i) s = .next (s.stepped i e') ∧ exec (.longJump i) s = .next (s.stepped i e'') :=
  ⟨exec_jump_of_holds h hj, exec_longJump_of_holds h hl⟩

/-- Settles O43: on every variant that has them the jumps are the model's, and on the twelve their tables are the
statement's. -/
theorem jumpsComplete : Obligations.JumpsComplete := by
  refine ⟨fun s i e e' h => ⟨fun hj => ⟨engineVariant_of_jumpEngine hj, exec_jump_of_holds h hj⟩,
    fun hj => ⟨engineVariant_of_longJumpEngine hj, exec_longJump_of_holds h hj⟩⟩,
    fun e => ⟨isSome_jumpEngine e, isSome_longJumpEngine e⟩, ?_, ?_, ?_, ?_, ?_⟩
  all_goals
    simp only [List.forall_mem_cons, List.not_mem_nil, false_implies, implies_true, and_true]
    intro s i x
  · exact ⟨⟨rfl, fun h => exec_jumps_of_holds h rfl rfl⟩, rfl, fun h => exec_jumps_of_holds h rfl rfl⟩
  · exact ⟨rfl, fun h => exec_jumps_of_holds h rfl rfl⟩
  all_goals exact ⟨⟨rfl, fun h => exec_jumps_of_holds h rfl rfl⟩, ⟨rfl, fun h => exec_jumps_of_holds h rfl rfl⟩, rfl,
    fun h => exec_jumps_of_holds h rfl rfl⟩

end Sys2Proof.Machine
end

section
/-!
SUPPORT. STATE_READ, STATE_WRITE and QUERY (40_commands.md R178 to R180): a legal write replaces one word of the state
vector (10_state.md R64, R65).
-/

namespace Sys2Proof.Machine

section
variable {s : State} {i : BitVec 4} {e : Engine}

/-- STATE_READ at an index that the state vector has (R178). -/
theorem exec_stateRead_of_holds (h : s.holds i e) {v : Word} (hv : (stateVector e)[(s.opnd 0).toNat]? = some v) :
    exec (.stateRead i) s = .next { s with res := v, err := 0, running := none } := by
  simp only [exec, execStateRead, stateReadBody, engineOf_of_holds h, bind_ok, hv]
  rfl

/-- STATE_READ at an index beyond the state vector (R178, R487). -/
theorem exec_stateRead_outside (h : s.holds i e) (hj : stateWords (engineVariant e) ≤ (s.opnd 0).toNat) :
    exec (.stateRead i) s = .next (s.refusedAs 6) := by
  have outside : (stateVector e)[(s.opnd 0).toNat]? = none :=
    List.getElem?_eq_none ((stateVector_length e).trans_le hj)
  simp only [exec, execStateRead, stateReadBody, engineOf_of_holds h, bind_ok, outside]
  rfl

/-- STATE_WRITE of a value that the field can hold (R179). -/
theorem exec_stateWrite_of_holds (h : s.holds i e) {e' : Engine}
    (hw : writeStateVector e (s.opnd 0).toNat (s.opnd 1) = some e') :
    exec (.stateWrite i) s = .next (s.stepped i e') := by
  simp only [exec, execStateWrite, stateWriteBody, engineOf_of_holds h, bind_ok, hw]
  rfl

/-- QUERY on a seeded instance (R180). -/
theorem exec_query_of_holds (h : s.holds i e) :
    exec (.query i) s = .next { s with res := queryWord (engineVariant e), err := 0, running := none } := by
  simp only [exec, execQuery, queryBody, engineOf_of_holds h, bind_ok]
  rfl

end

/-- Settles O56: by whether the state vector has the index. -/
theorem stateReadCompletes : Obligations.StateReadCompletes := by
  refine ⟨fun s i e j h hj => ⟨fun v hv => ?_, fun hout => ?_⟩, fun s i => exec_unseeded_of_inRange rfl rfl⟩
  · exact exec_stateRead_of_holds h (hj ▸ hv)
  · exact exec_stateRead_outside h (hj ▸ hout)

/-! ### A legal write -/

/-- The write of `v` at index j is defined, keeps the variant and replaces that word of the state vector alone (R65). -/
def ReplacesWord (e : Engine) (j : Nat) (v : Word) : Prop :=
  ∃ e', writeStateVector e j v = some e' ∧ engineVariant e' = engineVariant e ∧
    stateVector e' = (stateVector e).set j v

/-- A write of the state that an engine is made of, in the engine. -/
theorem ReplacesWord.of_map {σ : Type} {e : Engine} {j : Nat} {v : Word} {make : σ → Engine} {write : Option σ} {x : σ}
    (rule : writeStateVector e j v = write.map make) (written : write = some x)
    (variant : engineVariant (make x) = engineVariant e) (words : stateVector (make x) = (stateVector e).set j v) :
    ReplacesWord e j v :=
  ⟨make x, by rw [rule, written, Option.map_some], variant, words⟩

/-- A word of an array is replaced (R65). -/
theorem arrayWrite_eq {n j : Nat} (h : j < n) (s : Vector Word n) (v : Word) :
    arrayWrite s j v = some (s.set j v) := dif_pos h

/-- The words of an array with one replaced, followed by one more word. -/
theorem words_set {n j : Nat} (h : j < n) (s : Vector Word n) (x v : Word) :
    (s.set j v).toList ++ [x] = (s.toList ++ [x]).set j v := by
  rw [List.set_append_left _ _ (by simpa using h), Vector.toList_set]

/-- The words of an array, followed by one more word that is replaced. -/
theorem words_set_last {n : Nat} (s : Vector Word n) (x v : Word) : s.toList ++ [v] = (s.toList ++ [x]).set n v := by
  rw [List.set_append_right _ _ (by simp)]
  simp

/-- A legal write of a 16-word state (R65): a word, or p. -/
theorem xoro1024Write_legal {x : Xoro1024} {j : Nat} {v : Word} (hj : j < 17) (hv : j = 16 → v.toNat ≤ 15) :
    ∃ x', xoro1024Write x j v = some x' ∧
      x'.s.toList ++ [x'.p.setWidth 64] = (x.s.toList ++ [x.p.setWidth 64]).set j v := by
  by_cases h : j < 16
  · exact ⟨_, dif_pos h, words_set h x.s _ v⟩
  · obtain rfl : j = 16 := by omega
    have fits := hv rfl
    have index : (v.setWidth 4).setWidth 64 = v := by
      refine BitVec.eq_of_toNat_eq ?_
      rw [BitVec.toNat_setWidth, BitVec.toNat_setWidth]
      omega
    refine ⟨{ x with p := v.setWidth 4 }, by simp [xoro1024Write, fits], ?_⟩
    rw [index]
    exact words_set_last x.s _ v

/-- A legal write of an MWC state (R65): a word, or the carry. -/
theorem mwcWrite_legal {r : Nat} {s : Mwc r} {j : Nat} {v : Word} (hj : j < r + 1) :
    ∃ s', mwcWrite s j v = some s' ∧ s'.w.toList ++ [s'.c] = (s.w.toList ++ [s.c]).set j v := by
  by_cases h : j < r
  · exact ⟨_, dif_pos h, words_set h s.w _ v⟩
  · obtain rfl : j = r := by omega
    exact ⟨{ s with c := v }, by simp [mwcWrite], words_set_last s.w _ v⟩

/-- A legal write of an MT state (R65): a word of its width, or mti. The words are zero-extended to 64 bits (R64). -/
theorem mtWrite_legal {w n : Nat} {s : Mt w n} {j : Nat} {v : Word} (hn : n < 2 ^ 64) (hj : j < n + 1)
    (hv : if j < n then v.toNat < 2 ^ w else v.toNat ≤ n) : ∃ s', mtWrite s j v = some s' ∧
      (s'.mt.map fun x => x.setWidth 64).toList ++ [BitVec.ofNat 64 s'.mti.val] =
        ((s.mt.map fun x => x.setWidth 64).toList ++ [BitVec.ofNat 64 s.mti.val]).set j v := by
  by_cases h : j < n
  · rw [if_pos h] at hv
    have word : (v.setWidth w).setWidth 64 = v := by
      refine BitVec.eq_of_toNat_eq ?_
      rw [BitVec.toNat_setWidth, BitVec.toNat_setWidth, Nat.mod_eq_of_lt hv, Nat.mod_eq_of_lt v.isLt]
    refine ⟨{ s with mt := s.mt.set j (v.setWidth w) }, by simp [mtWrite, h, hv], ?_⟩
    rw [← words_set h]
    congr 2
    refine Vector.ext fun k hk => ?_
    simp only [Vector.getElem_map, Vector.getElem_set]
    split
    · exact word
    · rfl
  · obtain rfl : j = n := by omega
    rw [if_neg h] at hv
    have position : BitVec.ofNat 64 (Fin.ofNat (j + 1) v.toNat).val = v := by
      rw [Fin.val_ofNat, Nat.mod_eq_of_lt (by omega), BitVec.ofNat_toNat, BitVec.setWidth_eq]
    refine ⟨{ s with mti := Fin.ofNat (j + 1) v.toNat }, by simp [mtWrite, hv], ?_⟩
    rw [position]
    exact words_set_last _ _ v

/-- The halves of a 128-bit value built of two words (R64). -/
theorem halves_append (a b : Word) :
    (a ++ b : Word128).setWidth 64 = b ∧ ((a ++ b : Word128) >>> 64).setWidth 64 = a := by
  have bit (k : Nat) : (a ++ b : Word128).getLsbD k = if k < 64 then b.getLsbD k else a.getLsbD (k - 64) :=
    BitVec.getLsbD_append
  constructor <;> refine BitVec.eq_of_getLsbD_eq fun k hk => ?_
  · simp [bit, hk]
  · simp [bit, hk]

/-- A legal write of PCG64 (R65): one half of the state or of inc. -/
theorem pcg64Write_legal {s : Lcg 128} {j : Nat} {v : Word} (hj : j < 4) : ReplacesWord (.pcg64 s) j v := by
  obtain rfl | rfl | rfl | rfl : j = 0 ∨ j = 1 ∨ j = 2 ∨ j = 3 := by omega
  all_goals exact ⟨_, rfl, rfl, by simp [stateVector, setHalf, halves_append]⟩

/-- A legal write (R65), on every variant. -/
theorem writeStateVector_legal {e : Engine} {j : Nat} {v : Word} (hj : j < stateWords (engineVariant e))
    (hv : legalValue (engineVariant e) j v = true) : ReplacesWord e j v := by
  cases e with
  | splitmix64 _ =>
    obtain rfl : j = 0 := by simpa [engineVariant, stateWords] using hj
    exact ⟨_, rfl, rfl, rfl⟩
  | xoroshiro128p s | xoroshiro128pp s | xoroshiro128ss s | xoshiro256p s | xoshiro256pp s | xoshiro256ss s
  | xoshiro512p s | xoshiro512pp s | xoshiro512ss s =>
    exact .of_map rfl (arrayWrite_eq hj s v) rfl (Vector.toList_set hj)
  | xoroshiro1024s x | xoroshiro1024pp x | xoroshiro1024ss x =>
    obtain ⟨x', written, words⟩ := xoro1024Write_legal (x := x) hj (of_decide_eq_true hv)
    exact .of_map rfl written rfl words
  | pcg64 s => exact pcg64Write_legal hj
  | mwc128 s | mwc192 s | mwc256 s =>
    obtain ⟨s', written, words⟩ := mwcWrite_legal (s := s) (v := v) hj
    exact .of_map rfl written rfl words
  | mt19937 s =>
    obtain ⟨s', written, words⟩ := mtWrite_legal (s := s) (v := v) (by decide) hj (by
      simpa [legalValue, engineVariant] using hv)
    exact .of_map rfl written rfl (by simpa only [stateVector, Vector.toList_map] using words)
  | mt19937w64 s =>
    obtain ⟨s', written, words⟩ := mtWrite_legal (s := s) (v := v) (by decide) hj (by
      have index : j = 312 → v.toNat ≤ 312 := of_decide_eq_true hv
      have fits := v.isLt
      simp only [engineVariant, stateWords] at hj
      split <;> omega)
    exact .of_map rfl written rfl (by simpa [stateVector] using words)
  | pcg32 s | gmwc128 s =>
    obtain rfl | rfl : j = 0 ∨ j = 1 := by simp only [engineVariant, stateWords] at hj; omega
    all_goals exact ⟨_, rfl, rfl, rfl⟩
  | sfc64 s | jsf64 s =>
    obtain rfl | rfl | rfl | rfl : j = 0 ∨ j = 1 ∨ j = 2 ∨ j = 3 := by
      simp only [engineVariant, stateWords] at hj; omega
    all_goals exact ⟨_, rfl, rfl, rfl⟩

/-- The instance that a command wrote holds what it wrote. -/
theorem stepped_holds {s : State} {i : BitVec 4} (h : i.toNat < s.ninst) (e : Engine) :
    (s.stepped i e).holds i e :=
  ⟨by simpa [State.ninst, State.stepped] using h, State.setEngine_inst_same h e⟩

/-- Settles O57: by the legal write of the state vector, read back from the instance that holds it. -/
theorem stateWriteCompletes : Obligations.StateWriteCompletes := by
  intro s i e j v h hj hval legal fits
  obtain ⟨e', written, variant, words⟩ := writeStateVector_legal legal fits
  refine ⟨e', exec_stateWrite_of_holds h (by rw [hj, hval]; exact written), variant, words, ?_⟩
  have holds : (s.stepped i e').holds i e' := stepped_holds h.1 e'
  have word : (stateVector e')[((s.stepped i e').opnd 0).toNat]? = some v := by
    change (stateVector e')[(s.opnd 0).toNat]? = some v
    rw [hj, words, List.getElem?_set_self]
    rwa [stateVector_length]
  exact exec_stateRead_of_holds holds word

/-- Settles O58: by the word of each variant. -/
theorem queryCompletes : Obligations.QueryCompletes := by
  refine ⟨fun s i e h => ⟨_, exec_query_of_holds h, ?_⟩, fun s i => exec_unseeded_of_inRange rfl rfl⟩
  generalize engineVariant e = v
  cases v <;> decide

end Sys2Proof.Machine
end

section
/-!
SUPPORT. The seeding rules (40_commands.md R182): `init_v` of exactly NSEED words, variant by variant.
-/

namespace Sys2Proof.Machine

/-- An array of words is read back from the list of its words. -/
theorem ofFn_getD_toList {n : Nat} (u : Vector Word n) : (Vector.ofFn fun i => u.toList.getD i.val 0) = u :=
  Vector.ext fun k _ => by simp

/-- The seed words are the state (R248). -/
theorem seedArray_toList {n : Nat} (u : Vector Word n) : seedArray n u.toList = u := ofFn_getD_toList u

/-- The seed words are the state, with p = 0 (R248). -/
theorem xoro1024Init_toList (u : Vector Word 16) : xoro1024Init u.toList = ⟨u, 0⟩ :=
  congrArg (Xoro1024.mk · 0) (seedArray_toList u)

/-- The seed words are the data words, with c = 1 (R425). -/
theorem mwcInit_toList {r : Nat} (u : Vector Word r) : mwcInit r u.toList = ⟨u, 1⟩ :=
  congrArg (Mwc.mk · 1) (ofFn_getD_toList u)

/-- The two steps of pcg-c's seeding as one formula: the first leaves inc, the state being 0 (R300, R303). -/
theorem lcgInit_eq {w : Nat} (mult initstate initseq : BitVec w) :
    let inc := (initseq <<< 1) ||| 1
    lcgInit mult initstate initseq = ⟨(inc + initstate) * mult + inc, inc⟩ := by
  simp [lcgInit, lcgStep]

/-- Every output of SFC64 counts one (R381). -/
theorem sfcNext_iterate_counter (n : Nat) (s : Sfc) :
    ((fun y => (sfcNext y).2)^[n] s).counter = s.counter + BitVec.ofNat 64 n := by
  induction n with
  | zero => simp
  | succ n ih =>
    rw [Function.iterate_succ_apply', BitVec.ofNat_add, ← BitVec.add_assoc, ← ih]
    rfl

/-- The counter starts at 1, and twelve outputs are discarded (R382). -/
theorem sfcInit_counter (a : Word) : (sfcInit a).counter = 13 := sfcNext_iterate_counter 12 _

/-- Settles O31: the seed words fill the state as they are, except where PCG, SFC64 and JSF64 run their generator on them;
SFC64's counter counts the runs. -/
theorem seedFormulas : Obligations.SeedFormulas := by
  refine ⟨fun a => rfl, fun u => ?_, fun u => ?_, fun u => ?_, fun u => ?_, fun a b => ?_, fun a b c d => ?_,
    fun a => ⟨sfcInit a, rfl, sfcInit_counter a, rfl⟩, fun a => rfl, fun a b c => ⟨?_, ?_, ?_, rfl⟩⟩
  iterate 4 · simp only [initEngine, seedArray_toList, xoro1024Init_toList, and_self]
  · exact congrArg Engine.pcg32 (lcgInit_eq pcgMult32 a b)
  · exact congrArg Engine.pcg64 (lcgInit_eq pcgMult64 (b ++ a) (d ++ c))
  · exact congrArg Engine.mwc128 (mwcInit_toList #v[a])
  · exact congrArg Engine.mwc192 (mwcInit_toList #v[a, b])
  · exact congrArg Engine.mwc256 (mwcInit_toList #v[a, b, c])

end Sys2Proof.Machine
end

section
/-!
SUPPORT. NEXT on the xoshiro/xoroshiro variants (42_xoshiro.md R230 to R247): each step as equations over the words
before it.
-/

namespace Sys2Proof.Machine

/-! ### Rotates -/

/-- The rotate of R10 is the library's. -/
theorem rotl_eq_rotateLeft {w : Nat} (x : BitVec w) {k : Nat} (h : k < w) : rotl x k = x.rotateLeft k := by
  rw [BitVec.rotateLeft_def, Nat.mod_eq_of_lt h, rotl]
  split_ifs with h0
  · rw [h0, Nat.sub_zero, BitVec.ushiftRight_eq_zero (Nat.le_refl w), BitVec.shiftLeft_zero, BitVec.or_zero]
  · rfl

/-- A rotate loses no bit: bit i of `x` stands at `(i + k) mod w` of the rotated word. -/
theorem rotateLeft_eq_zero_iff {w : Nat} (x : BitVec w) (k : Nat) : x.rotateLeft k = 0#w ↔ x = 0#w := by
  refine ⟨fun h => BitVec.eq_of_getElem_eq fun i hi => ?_, fun h => ?_⟩
  · have hk : k % w < w := Nat.mod_lt _ (by omega)
    have bits : ∀ j (hj : j < w), (x.rotateLeft k)[j] = false := fun j hj => by simp [h]
    by_cases hlow : i + k % w < w
    · simpa [BitVec.getElem_rotateLeft] using bits (i + k % w) hlow
    · have bit := bits (i + k % w - w) (by omega)
      rw [BitVec.getElem_rotateLeft, dif_pos (by omega)] at bit
      simpa [show w - k % w + (i + k % w - w) = i by omega] using bit
  · simp [h, BitVec.rotateLeft_def]

/-! ### NEXT on a variant with 64-bit native outputs -/

/-- NEXT answers the native output and leaves the stepped state (R171). -/
theorem exec_next_of_nextNative {s : State} {i : BitVec 4} {e e' : Engine} {v : Word} (h : s.holds i e)
    (h64 : native32 (engineVariant e) = false) (hout : (nextNative e).1 = v) (hstep : (nextNative e).2 = e') :
    exec (.next i) s = .next (s.answered i e' v) := by
  rw [exec_next_of_holds h, nextRaw, h64, ← hout, ← hstep]
  rfl

/-! ### The 2-, 4- and 8-word variants -/

/-- R231, over the words before the step. -/
theorem step128_eq {a c : Nat} (ha : a < 64) (hc : c < 64) (b : Nat) (x y : Word) : step128 a b c #v[x, y] =
    #v[x.rotateLeft a ^^^ (y ^^^ x) ^^^ ((y ^^^ x) <<< b), (y ^^^ x).rotateLeft c] := by
  rw [← rotl_eq_rotateLeft _ ha, ← rotl_eq_rotateLeft _ hc]
  rfl

/-- R236, over the words before the step. -/
theorem step256_eq (a b c d : Word) : step256 #v[a, b, c, d] =
    #v[a ^^^ d ^^^ b, b ^^^ c ^^^ a, c ^^^ a ^^^ (b <<< 17), (d ^^^ b).rotateLeft 45] := by
  rw [← rotl_eq_rotateLeft _ (by decide), BitVec.xor_assoc a, BitVec.xor_assoc b]
  rfl

/-- R240, over the words before the step. -/
theorem step512_eq (x0 x1 x2 x3 x4 x5 x6 x7 : Word) : step512 #v[x0, x1, x2, x3, x4, x5, x6, x7] =
    #v[x0 ^^^ x6, x1 ^^^ x2 ^^^ x0, x2 ^^^ x0, x3 ^^^ x4, x4 ^^^ x5 ^^^ x1, x5 ^^^ x1, x6 ^^^ x7 ^^^ x3 ^^^ (x1 <<< 11),
      (x7 ^^^ x3).rotateLeft 21] := by
  rw [← rotl_eq_rotateLeft _ (by decide), BitVec.xor_assoc x1, BitVec.xor_assoc x4, BitVec.xor_assoc x6]
  rfl

/-- Settles O36: R231 and R232 over the words before the step. -/
theorem xoroshiro128Next : Obligations.Xoroshiro128Next := by
  have step : ∀ a b, stepXoro128 #v[a, b] = _ := step128_eq (by decide) (by decide) 16
  have stepPP : ∀ a b, stepXoro128pp #v[a, b] = _ := step128_eq (by decide) (by decide) 21
  refine fun s i a b => ⟨fun h => ?_, fun h => ?_, fun h => ?_⟩
  · exact exec_next_of_nextNative h rfl rfl (congrArg Engine.xoroshiro128p (step a b))
  · refine exec_next_of_nextNative h rfl ?_ (congrArg Engine.xoroshiro128ss (step a b))
    exact congrArg (· * 9) (rotl_eq_rotateLeft (a * 5) (by decide))
  · refine exec_next_of_nextNative h rfl ?_ (congrArg Engine.xoroshiro128pp (stepPP a b))
    exact congrArg (· + a) (rotl_eq_rotateLeft (a + b) (by decide))

/-- Settles O37: R236 and R240 over the words before the step. -/
theorem xoshiroNext : Obligations.XoshiroNext := by
  refine ⟨?_, ?_⟩
  · intro s i a b c d w
    have step : step256 #v[a, b, c, d] = w := step256_eq a b c d
    refine ⟨fun h => ?_, fun h => ?_, fun h => ?_⟩
    · exact exec_next_of_nextNative h rfl rfl (congrArg Engine.xoshiro256p step)
    · refine exec_next_of_nextNative h rfl ?_ (congrArg Engine.xoshiro256pp step)
      exact congrArg (· + a) (rotl_eq_rotateLeft (a + d) (by decide))
    · refine exec_next_of_nextNative h rfl ?_ (congrArg Engine.xoshiro256ss step)
      exact congrArg (· * 9) (rotl_eq_rotateLeft (b * 5) (by decide))
  · intro s i x0 x1 x2 x3 x4 x5 x6 x7 w
    have step : step512 #v[x0, x1, x2, x3, x4, x5, x6, x7] = w := step512_eq x0 x1 x2 x3 x4 x5 x6 x7
    refine ⟨fun h => ?_, fun h => ?_, fun h => ?_⟩
    · exact exec_next_of_nextNative h rfl rfl (congrArg Engine.xoshiro512p step)
    · refine exec_next_of_nextNative h rfl ?_ (congrArg Engine.xoshiro512pp step)
      exact congrArg (· + x2) (rotl_eq_rotateLeft (x0 + x2) (by decide))
    · refine exec_next_of_nextNative h rfl ?_ (congrArg Engine.xoshiro512ss step)
      exact congrArg (· * 9) (rotl_eq_rotateLeft (x1 * 5) (by decide))

/-! ### The 16-word variants -/

/-- R244, word by word: the words at p and p + 1 change. -/
theorem getElem_step1024 {x : Xoro1024} {s0 s15 : Word} (h0 : xoro1024S0 x = s0) (h15 : xoro1024S15 x = s15) {k : Nat}
    (hk : k < 16) : (step1024 x).s[k] =
      if k = x.p.toNat then s0.rotateLeft 25 ^^^ (s15 ^^^ s0) ^^^ ((s15 ^^^ s0) <<< 27)
      else if k = (x.p + 1).toNat then (s15 ^^^ s0).rotateLeft 36
      else x.s[k] := by
  have distinct : x.p.toNat ≠ (x.p + 1).toNat := by bv_omega
  have r25 : rotl s0 25 = s0.rotateLeft 25 := rotl_eq_rotateLeft _ (by decide)
  have r36 : rotl (s15 ^^^ s0) 36 = (s15 ^^^ s0).rotateLeft 36 := rotl_eq_rotateLeft _ (by decide)
  simp only [step1024, h0, h15, r25, r36, Vector.getElem_set, eq_comm (b := k)]
  by_cases hp : k = x.p.toNat
  · rw [if_pos hp, if_pos hp, if_neg (hp ▸ distinct)]
  · rw [if_neg hp, if_neg hp]

/-- Settles O38: R244 word by word. -/
theorem xoroshiro1024Next : Obligations.Xoroshiro1024Next := by
  intro s i x p q s0 s15 y w
  have first : xoro1024S0 ⟨x, p⟩ = s0 := (getD_eq_getElem x (p + 1).isLt).symm
  have second : xoro1024S15 ⟨x, p⟩ = s15 := (getD_eq_getElem x p.isLt).symm
  have words : (step1024 ⟨x, p⟩).s = w := Vector.ext fun k hk => by
    rw [getElem_step1024 first second hk, Vector.getElem_ofFn]
    rfl
  have step : step1024 ⟨x, p⟩ = ⟨w, p + 1⟩ := congrArg (Xoro1024.mk · (p + 1)) words
  refine ⟨fun h => ?_, fun h => ?_, fun h => ?_⟩
  · exact exec_next_of_nextNative h rfl (congrArg (· * _) first) (congrArg Engine.xoroshiro1024s step)
  · refine exec_next_of_nextNative h rfl ?_ (congrArg Engine.xoroshiro1024pp step)
    rw [nextNative, outXoro1024pp, first, second, rotl_eq_rotateLeft _ (by decide)]
  · refine exec_next_of_nextNative h rfl ?_ (congrArg Engine.xoroshiro1024ss step)
    rw [nextNative, outXoro1024ss, first, rotl_eq_rotateLeft _ (by decide)]

end Sys2Proof.Machine
end

section
/-!
SUPPORT. The all-zero state of the xoshiro/xoroshiro generators (42_xoshiro.md R249): it is the only state that steps to
all-zero words, and the walk of a jump accumulates nothing from it (43_gf2_jump.md R281, R282).
-/

namespace Sys2Proof.Machine

/-! ### A state is its words -/

theorem exists_words_2 : ∀ s : Vector Word 2, ∃ a b, s = #v[a, b]
  | ⟨⟨[a, b]⟩, _⟩ => ⟨a, b, rfl⟩

theorem exists_words_4 : ∀ s : Vector Word 4, ∃ a b c d, s = #v[a, b, c, d]
  | ⟨⟨[a, b, c, d]⟩, _⟩ => ⟨a, b, c, d, rfl⟩

theorem exists_words_8 : ∀ s : Vector Word 8, ∃ x0 x1 x2 x3 x4 x5 x6 x7, s = #v[x0, x1, x2, x3, x4, x5, x6, x7]
  | ⟨⟨[x0, x1, x2, x3, x4, x5, x6, x7]⟩, _⟩ => ⟨x0, x1, x2, x3, x4, x5, x6, x7, rfl⟩

/-! ### Only the all-zero words step to the all-zero words -/

/-- The second word gives s[1] = s[0], and the first word then s[0] = 0 (R231, R249). -/
theorem step128_eq_zero_iff {a c : Nat} (ha : a < 64) (hc : c < 64) (b : Nat) (s : Vector Word 2) :
    step128 a b c s = zeroWords 2 ↔ s = zeroWords 2 := by
  refine ⟨fun h => ?_, fun h => h ▸ (step128_isLinear a b c).zero⟩
  obtain ⟨x, y, rfl⟩ := exists_words_2 s
  change step128 a b c #v[x, y] = #v[0, 0] at h
  rw [step128_eq ha hc] at h
  obtain ⟨h0, rfl⟩ : x.rotateLeft a ^^^ (y ^^^ x) = (y ^^^ x) <<< b ∧ y = x := by
    simpa [rotateLeft_eq_zero_iff] using h
  obtain rfl : y = 0 := by simpa [rotateLeft_eq_zero_iff] using h0
  rfl

/-- A word that a shift leaves as it is has no lowest set bit. -/
theorem eq_zero_of_eq_shiftLeft {w k : Nat} (hk : 0 < k) {x : BitVec w} (h : x = x <<< k) : x = 0 := by
  have clear : ∀ i, x.getLsbD i = false := fun i => by
    induction i using Nat.strongRecOn with
    | ind i ih =>
      rw [h, BitVec.getLsbD_shiftLeft]
      by_cases hi : i < k
      · simp [hi]
      · simp [ih (i - k) (by omega)]
  exact BitVec.eq_of_getLsbD_eq fun i _ => by simp [clear]

/-- The words give s[3] = s[1], s[0] = 0 and s[2] = s[1], which is then its own shift (R236, R249). -/
theorem step256_eq_zero_iff (s : Vector Word 4) : step256 s = zeroWords 4 ↔ s = zeroWords 4 := by
  refine ⟨fun h => ?_, fun h => h.symm ▸ rfl⟩
  obtain ⟨a, b, c, d, rfl⟩ := exists_words_4 s
  change step256 #v[a, b, c, d] = #v[0, 0, 0, 0] at h
  rw [step256_eq] at h
  obtain ⟨h0, h1, h2, rfl⟩ : a ^^^ d = b ∧ b ^^^ c = a ∧ c ^^^ a = b <<< 17 ∧ d = b := by
    simpa [rotateLeft_eq_zero_iff] using h
  obtain rfl : a = 0 := by simpa using h0
  obtain rfl : d = c := by simpa using h1
  obtain rfl : d = 0 := eq_zero_of_eq_shiftLeft (k := 17) (by decide) (by simpa using h2)
  rfl

/-- The words give s[0] = s[2] = s[6], then s[1] = s[5] = 0, s[3] = s[4] = s[7] = 0 and s[6] = 0 (R240, R249). -/
theorem step512_eq_zero_iff (s : Vector Word 8) : step512 s = zeroWords 8 ↔ s = zeroWords 8 := by
  refine ⟨fun h => ?_, fun h => h.symm ▸ rfl⟩
  obtain ⟨x0, x1, x2, x3, x4, x5, x6, x7, rfl⟩ := exists_words_8 s
  change step512 #v[x0, x1, x2, x3, x4, x5, x6, x7] = #v[0, 0, 0, 0, 0, 0, 0, 0] at h
  rw [step512_eq] at h
  obtain ⟨rfl, h1, rfl, rfl, h4, rfl, h6, rfl⟩ : x0 = x6 ∧ x1 ^^^ x2 = x0 ∧ x2 = x0 ∧ x3 = x4 ∧ x4 ^^^ x5 = x1 ∧
      x5 = x1 ∧ x6 ^^^ x7 ^^^ x3 = x1 <<< 11 ∧ x7 = x3 := by simpa [rotateLeft_eq_zero_iff] using h
  obtain rfl : x5 = 0 := by simpa using h1
  obtain rfl : x7 = 0 := by simpa using h4
  obtain rfl : x2 = 0 := by simpa using h6
  rfl

/-- The words at p and p + 1 were 0 if they become 0, and the others stay (R244, R249). -/
theorem step1024_eq_zero_iff (x : Xoro1024) : (step1024 x).s = zeroWords 16 ↔ x.s = zeroWords 16 := by
  refine ⟨fun h => ?_, fun h => Vector.ext fun k hk => ?_⟩
  · have word : ∀ k (hk : k < 16), (step1024 x).s[k] = 0 := fun k hk => by rw [h, getElem_zeroWords]
    have atP := word x.p.toNat x.p.isLt
    have atQ := word (x.p + 1).toNat (x.p + 1).isLt
    rw [getElem_step1024 rfl rfl, if_pos rfl] at atP
    rw [getElem_step1024 rfl rfl, if_neg (by bv_omega), if_pos rfl] at atQ
    have sum : xoro1024S15 x ^^^ xoro1024S0 x = 0 := (rotateLeft_eq_zero_iff _ 36).1 atQ
    have h0 : xoro1024S0 x = 0 := (rotateLeft_eq_zero_iff _ 25).1 (by simpa [sum] using atP)
    have h15 : xoro1024S15 x = 0 := (BitVec.xor_eq_zero_iff.1 sum).trans h0
    refine Vector.ext fun k hk => ?_
    rw [getElem_zeroWords]
    by_cases hp : k = x.p.toNat
    · subst hp
      exact h15
    by_cases hq : k = (x.p + 1).toNat
    · subst hq
      exact h0
    · rw [← word k hk, getElem_step1024 rfl rfl, if_neg hp, if_neg hq]
  · have h0 : xoro1024S0 x = 0 := by simp [xoro1024S0, h]
    have h15 : xoro1024S15 x = 0 := by simp [xoro1024S15, h]
    simp [getElem_step1024 h0 h15, h, BitVec.rotateLeft_def]

/-! ### Jumps from the all-zero words -/

/-- The walk from a state that looks all zero, and goes on looking so, accumulates nothing (R281, R282). -/
theorem gf2Walk_zero {σ : Type} {n : Nat} {step : σ → σ} {view : σ → Vector Word n} (bits : List Bool) {s : σ}
    (h : ∀ k, view (step^[k] s) = zeroWords n) :
    gf2Walk step view bits (zeroWords n) s = (zeroWords n, step^[bits.length] s) := by
  induction bits generalizing s with
  | nil => rfl
  | cons b bits ih =>
    have start : view s = zeroWords n := h 0
    have acc : (if b then xorWords (zeroWords n) (view s) else zeroWords n) = zeroWords n := by simp [start]
    rw [gf2Walk, acc, ih fun k => h (k + 1)]
    rfl

theorem gf2Jump_zero {n : Nat} {step : Vector Word n → Vector Word n} (h : step (zeroWords n) = zeroWords n)
    (table : List Word) : gf2Jump step table (zeroWords n) = zeroWords n :=
  congrArg Prod.fst (gf2Walk_zero _ (Function.iterate_fixed h))

theorem tableBits_length (table : List Word) : (tableBits table).length = 64 * table.length := by
  simp [tableBits, Nat.mul_comm]

/-- A step of an all-zero 16-word state moves p alone (R244, R249). -/
theorem step1024_iterate_zero (p : BitVec 4) (k : Nat) :
    step1024^[k] ⟨zeroWords 16, p⟩ = ⟨zeroWords 16, p + BitVec.ofNat 4 k⟩ := by
  induction k with
  | zero => simp
  | succ k ih =>
    rw [Function.iterate_succ_apply', ih, BitVec.ofNat_add, ← BitVec.add_assoc]
    exact congrArg (Xoro1024.mk · _) ((step1024_eq_zero_iff _).2 rfl)

/-- The walk of a 16-word variant takes p round a whole number of times, so that p stays (R282). -/
theorem gf2Jump1024_zero (table : List Word) (p : BitVec 4) :
    gf2Jump1024 table ⟨zeroWords 16, p⟩ = ⟨zeroWords 16, p⟩ := by
  have view : ∀ q, xoro1024View ⟨zeroWords 16, q⟩ = zeroWords 16 := fun q => Vector.ext fun j hj => by
    simp [xoro1024View]
  have round : step1024^[(tableBits table).length] ⟨zeroWords 16, p⟩ = ⟨zeroWords 16, p⟩ := by
    have whole : BitVec.ofNat 4 (64 * table.length) = 0 := BitVec.eq_of_toNat_eq (by simp; omega)
    rw [step1024_iterate_zero, tableBits_length, whole, BitVec.ofNat_eq_ofNat, BitVec.add_zero]
  have walk : gf2Walk step1024 xoro1024View (tableBits table) (Vector.replicate 16 0) ⟨zeroWords 16, p⟩ =
      (zeroWords 16, ⟨zeroWords 16, p⟩) :=
    (gf2Walk_zero _ fun k => by rw [step1024_iterate_zero, view]).trans (congrArg _ round)
  simp only [gf2Jump1024, walk, xoro1024OfView]
  exact congrArg (Xoro1024.mk · p) (Vector.ext fun j hj => by simp)

/-! ### The all-zero state of each variant -/

/-- The engine answers 0, and both jumps leave it as it is (R249). -/
def AtRest (e : Engine) : Prop := (nextNative e).1 = 0 ∧ jumpEngine e = some e ∧ longJumpEngine e = some e

/-- Every jump of a 2-, 4- or 8-word variant whose step fixes the all-zero words leaves them. -/
theorem atRest_of_gf2Jump {n : Nat} {variant : Vector Word n → Engine} {step : Vector Word n → Vector Word n}
    {table longTable : List Word} (hstep : step (zeroWords n) = zeroWords n)
    (hout : (nextNative (variant (zeroWords n))).1 = 0)
    (hj : jumpEngine (variant (zeroWords n)) = some (variant (gf2Jump step table (zeroWords n))))
    (hl : longJumpEngine (variant (zeroWords n)) = some (variant (gf2Jump step longTable (zeroWords n)))) :
    AtRest (variant (zeroWords n)) :=
  ⟨hout, by rw [hj, gf2Jump_zero hstep], by rw [hl, gf2Jump_zero hstep]⟩

/-- Every jump of a 16-word variant leaves the all-zero words and p. -/
theorem atRest_of_gf2Jump1024 {variant : Xoro1024 → Engine} {p : BitVec 4} {table longTable : List Word}
    (hout : (nextNative (variant ⟨zeroWords 16, p⟩)).1 = 0)
    (hj : jumpEngine (variant ⟨zeroWords 16, p⟩) = some (variant (gf2Jump1024 table ⟨zeroWords 16, p⟩)))
    (hl : longJumpEngine (variant ⟨zeroWords 16, p⟩) = some (variant (gf2Jump1024 longTable ⟨zeroWords 16, p⟩))) :
    AtRest (variant ⟨zeroWords 16, p⟩) :=
  ⟨hout, by rw [hj, gf2Jump1024_zero], by rw [hl, gf2Jump1024_zero]⟩

/-- Settles O46: the words before a step that leaves zeros are found zero one by one; a jump adds up zeros. -/
theorem zeroState : Obligations.ZeroState := by
  have xoro128 : ∀ s, stepXoro128 s = zeroWords 2 ↔ s = zeroWords 2 := step128_eq_zero_iff (by decide) (by decide) 16
  have xoro128pp : ∀ s, stepXoro128pp s = zeroWords 2 ↔ s = zeroWords 2 := step128_eq_zero_iff (by decide) (by decide) 21
  refine ⟨fun s => ?_, step256_eq_zero_iff, step512_eq_zero_iff, step1024_eq_zero_iff, fun p => ?_⟩
  · simp only [List.forall_mem_cons, List.not_mem_nil, false_implies, implies_true, and_true]
    exact ⟨xoro128 s, xoro128pp s⟩
  · have first : xoro1024S0 ⟨zeroWords 16, p⟩ = 0 := getElem_zeroWords _
    have second : xoro1024S15 ⟨zeroWords 16, p⟩ = 0 := getElem_zeroWords _
    have fixed128 := (xoro128 _).2 rfl
    have fixed128pp := (xoro128pp _).2 rfl
    have fixed256 := (step256_eq_zero_iff _).2 rfl
    have fixed512 := (step512_eq_zero_iff _).2 rfl
    simp only [List.forall_mem_cons, List.not_mem_nil, false_implies, implies_true, and_true]
    refine ⟨atRest_of_gf2Jump fixed128 rfl rfl rfl, atRest_of_gf2Jump fixed128pp rfl rfl rfl,
      atRest_of_gf2Jump fixed128 rfl rfl rfl, atRest_of_gf2Jump fixed256 rfl rfl rfl,
      atRest_of_gf2Jump fixed256 rfl rfl rfl, atRest_of_gf2Jump fixed256 rfl rfl rfl,
      atRest_of_gf2Jump fixed512 rfl rfl rfl, atRest_of_gf2Jump fixed512 rfl rfl rfl,
      atRest_of_gf2Jump fixed512 rfl rfl rfl, atRest_of_gf2Jump1024 ?_ rfl rfl, atRest_of_gf2Jump1024 ?_ rfl rfl,
      atRest_of_gf2Jump1024 ?_ rfl rfl⟩
    all_goals simp only [nextNative, outXoro1024s, outXoro1024pp, outXoro1024ss, first, second]
    all_goals rfl

end Sys2Proof.Machine
end

section
/-!
SUPPORT. The bit walk word by word (43_gf2_jump.md R281, R282), and the 16-word variants relative to p: seen from p
their step is a map of the view alone, so that their jump is the walk of that map.
-/

namespace Sys2Proof.Machine

/-! ### The table's coefficients by their numbers -/

/-- Bit b of a table is bit b mod 64 of its word b / 64 (R281). -/
theorem testBit_tableNat (table : List Word) (b : Nat) :
    (tableNat table).testBit b = (table.getD (b / 64) 0).getLsbD (b % 64) := by
  induction table generalizing b with
  | nil => simp [tableNat]
  | cons t table ih =>
    rw [tableNat, Nat.testBit_two_pow_mul_add _ t.isLt]
    split_ifs with h
    · rw [Nat.div_eq_of_lt h, Nat.mod_eq_of_lt h]
      rfl
    · obtain ⟨c, rfl⟩ : ∃ c, b = c + 64 := ⟨b - 64, by omega⟩
      rw [Nat.add_sub_cancel, ih, Nat.add_div_right _ (by decide), Nat.add_mod_right, List.getD_cons_succ]

theorem tableBits_eq_map_range (table : List Word) : tableBits table =
    (List.range (64 * table.length)).map fun b => (table.getD (b / 64) 0).getLsbD (b % 64) := by
  rw [← natBits_tableNat, natBits]
  exact List.map_congr_left fun b _ => testBit_tableNat table b

section
variable {n : Nat} {step : Vector Word n → Vector Word n}

/-- A polynomial of the step, word by word: each coefficient selects the word after as many steps as its number. -/
theorem getElem_polyWalk_map_range (f : Nat → Bool) (m : Nat) (s : Vector Word n) (j : Fin n) :
    (polyWalk step ((List.range m).map f) s)[j] =
      (List.range m).foldl (fun acc b => if f b then acc ^^^ (step^[b] s)[j] else acc) 0 := by
  induction m with
  | zero => exact getElem_zeroWords j.isLt
  | succ m ih =>
    rw [List.range_succ, List.map_append, List.foldl_append, ← ih]
    simp only [List.map_cons, List.map_nil, polyWalk_append, List.length_map, List.length_range, Fin.getElem_fin,
      getElem_xorWords, List.foldl_cons, List.foldl_nil]
    by_cases h : f m <;> simp [h]

/-- Word j of a jump is the exclusive or of the words j that the table's bits select (R281). -/
theorem getElem_gf2Jump (table : List Word) (s : Vector Word n) (j : Fin n) :
    (gf2Jump step table s)[j] = (List.range (64 * table.length)).foldl
      (fun acc b => if (table.getD (b / 64) 0).getLsbD (b % 64) then acc ^^^ (step^[b] s)[j] else acc) 0 := by
  rw [gf2Jump_eq_polyWalk, tableBits_eq_map_range, getElem_polyWalk_map_range]

end

/-! ### The view of a 16-word state (R282) -/

@[simp] theorem xoro1024OfView_p (p : BitVec 4) (v : Vector Word 16) : (xoro1024OfView p v).p = p := rfl

theorem getElem_xoro1024View (x : Xoro1024) {j : Nat} (h : j < 16) :
    (xoro1024View x)[j] = x.s[(j + x.p.toNat) % 16] :=
  Vector.getElem_ofFn h

theorem getD_eq_getElem_xoro1024View (x : Xoro1024) {j : Nat} (h : j < 16) :
    x.s.getD ((j + x.p.toNat) % 16) 0 = (xoro1024View x)[j] := by
  rw [getElem_xoro1024View, getD_eq_getElem _ (Nat.mod_lt _ (by decide))]

@[simp] theorem xoro1024View_xoro1024OfView (p : BitVec 4) (v : Vector Word 16) :
    xoro1024View (xoro1024OfView p v) = v := by
  refine Vector.ext fun j hj => ?_
  have hp := p.isLt
  rw [getElem_xoro1024View]
  simp only [xoro1024OfView, Vector.getElem_ofFn]
  congr 1
  omega

@[simp] theorem xoro1024OfView_xoro1024View (x : Xoro1024) : xoro1024OfView x.p (xoro1024View x) = x := by
  refine congrArg (Xoro1024.mk · x.p) (Vector.ext fun k hk => ?_)
  have hp := x.p.isLt
  rw [Vector.getElem_ofFn, getElem_xoro1024View]
  congr 1
  change ((k + 16 - x.p.toNat) % 16 + x.p.toNat) % 16 = k
  omega

/-- Index and view make the state. -/
theorem eq_of_xoro1024View_eq {x y : Xoro1024} (hp : x.p = y.p) (hv : xoro1024View x = xoro1024View y) : x = y := by
  rw [← xoro1024OfView_xoro1024View x, hp, hv, xoro1024OfView_xoro1024View]

/-! ### The step seen from p -/

@[simp] theorem step1024_p (x : Xoro1024) : (step1024 x).p = x.p + 1 := rfl

theorem step1024_iterate_p (x : Xoro1024) (k : Nat) : (step1024^[k] x).p = x.p + BitVec.ofNat 4 k := by
  induction k with
  | zero => simp
  | succ k ih =>
    rw [Function.iterate_succ_apply', step1024_p, ih, BitVec.ofNat_add, ← BitVec.add_assoc]
    rfl

/-- R244 on the words the generator sees from p: the step computes the word p leaves, which becomes the last, and the
word p reaches, which becomes the first; every other word moves one place down. -/
def viewStep1024 (v : Vector Word 16) : Vector Word 16 :=
  let s15 := v[0] ^^^ v[1]
  Vector.ofFn fun j =>
    if j.val = 15 then rotl v[1] 25 ^^^ s15 ^^^ (s15 <<< 27)
    else if j.val = 0 then rotl s15 36
    else v[(j.val + 1) % 16]

theorem getElem_viewStep1024 (v : Vector Word 16) {j : Nat} (h : j < 16) : (viewStep1024 v)[j] =
    if j = 15 then rotl v[1] 25 ^^^ (v[0] ^^^ v[1]) ^^^ ((v[0] ^^^ v[1]) <<< 27)
    else if j = 0 then rotl (v[0] ^^^ v[1]) 36
    else v[(j + 1) % 16] :=
  Vector.getElem_ofFn h

/-- The view steps by itself, whatever p is (R244, R282). -/
theorem xoro1024View_semiconj : Function.Semiconj xoro1024View step1024 viewStep1024 := fun x => by
  have hp := x.p.isLt
  have hq : (x.p + 1).toNat = (x.p.toNat + 1) % 16 := by bv_omega
  have first : xoro1024S0 x = (xoro1024View x)[1] := by
    rw [getElem_xoro1024View, xoro1024S0]
    congr 1
    omega
  have second : xoro1024S15 x = (xoro1024View x)[0] := by
    rw [getElem_xoro1024View, xoro1024S15]
    congr 1
    omega
  refine Vector.ext fun j hj => ?_
  rw [getElem_xoro1024View, getElem_step1024 first second, getElem_viewStep1024,
    rotl_eq_rotateLeft _ (by decide), rotl_eq_rotateLeft _ (by decide)]
  simp only [step1024_p, hq]
  refine if_congr ?_ rfl (if_congr ?_ rfl ?_)
  · omega
  · omega
  · rw [getElem_xoro1024View]
    congr 1
    omega

/-- A walk through a view that steps by itself accumulates what the walk of the view's steps does. -/
theorem gf2Walk_of_semiconj {σ : Type} {n : Nat} {step : σ → σ} {view : σ → Vector Word n}
    {viewStep : Vector Word n → Vector Word n} (h : Function.Semiconj view step viewStep) (bits : List Bool)
    (acc : Vector Word n) (s : σ) :
    gf2Walk step view bits acc s = ((gf2Walk viewStep id bits acc (view s)).1, step^[bits.length] s) := by
  induction bits generalizing acc s with
  | nil => rfl
  | cons b bits ih =>
    rw [gf2Walk, ih, h s]
    rfl

/-- The jump of a 16-word variant is the jump of its view, put back from the same p: a table of whole words takes p
round a whole number of times (R282). -/
theorem gf2Jump1024_eq (table : List Word) (x : Xoro1024) :
    gf2Jump1024 table x = xoro1024OfView x.p (gf2Jump viewStep1024 table (xoro1024View x)) := by
  have round : (step1024^[(tableBits table).length] x).p = x.p := by
    have whole : BitVec.ofNat 4 (64 * table.length) = 0 := BitVec.eq_of_toNat_eq (by simp; omega)
    rw [step1024_iterate_p, tableBits_length, whole, BitVec.ofNat_eq_ofNat, BitVec.add_zero]
  simp only [gf2Jump1024, gf2Walk_of_semiconj xoro1024View_semiconj, round]
  rfl

@[simp] theorem gf2Jump1024_p (table : List Word) (x : Xoro1024) : (gf2Jump1024 table x).p = x.p := by
  rw [gf2Jump1024_eq, xoro1024OfView_p]

@[simp] theorem xoro1024View_gf2Jump1024 (table : List Word) (x : Xoro1024) :
    xoro1024View (gf2Jump1024 table x) = gf2Jump viewStep1024 table (xoro1024View x) := by
  rw [gf2Jump1024_eq, xoro1024View_xoro1024OfView]

/-- Settles O44: the walk's bits are the table's by their numbers, and a 16-word state is walked through its view. -/
theorem jumpPolynomial : Obligations.JumpPolynomial := by
  refine ⟨fun _ _ => getElem_gf2Jump, fun table x => ⟨gf2Jump1024_p table x, fun j hj => ?_⟩⟩
  have views : ∀ b, xoro1024View (step1024^[b] x) = viewStep1024^[b] (xoro1024View x) := fun b =>
    xoro1024View_semiconj.iterate_right b x
  rw [← gf2Jump1024_p table x]
  simp only [getD_eq_getElem_xoro1024View _ hj, views, xoro1024View_gf2Jump1024]
  exact getElem_gf2Jump table _ ⟨j, hj⟩

end Sys2Proof.Machine
end

section
/-!
SUPPORT. The steps of the xoshiro/xoroshiro generators are linear over GF(2), so that their jumps are linear and commute
with them (43_gf2_jump.md R285).
-/

namespace Sys2Proof.Machine

/-! ### The steps are linear -/

theorem rotateLeft_xor {w : Nat} (x y : BitVec w) {k : Nat} (h : k < w) :
    (x ^^^ y).rotateLeft k = x.rotateLeft k ^^^ y.rotateLeft k := by
  simp only [← rotl_eq_rotateLeft _ h, rotl_xor]

theorem xor_xor_xor_comm {w : Nat} (a b c d : BitVec w) : a ^^^ b ^^^ (c ^^^ d) = a ^^^ c ^^^ (b ^^^ d) := by
  ac_rfl

theorem xorWords_words_4 (a b c d a' b' c' d' : Word) :
    xorWords #v[a, b, c, d] #v[a', b', c', d'] = #v[a ^^^ a', b ^^^ b', c ^^^ c', d ^^^ d'] := rfl

theorem xorWords_words_8 (a b c d e f g h a' b' c' d' e' f' g' h' : Word) :
    xorWords #v[a, b, c, d, e, f, g, h] #v[a', b', c', d', e', f', g', h'] =
      #v[a ^^^ a', b ^^^ b', c ^^^ c', d ^^^ d', e ^^^ e', f ^^^ f', g ^^^ g', h ^^^ h'] := rfl

theorem step256_isLinear : IsLinear step256 := fun s t => by
  obtain ⟨a, b, c, d, rfl⟩ := exists_words_4 s
  obtain ⟨a', b', c', d', rfl⟩ := exists_words_4 t
  simp only [xorWords_words_4, step256_eq, BitVec.shiftLeft_xor_distrib, rotateLeft_xor, (by decide : 45 < 64),
    xor_xor_xor_comm]

theorem step512_isLinear : IsLinear step512 := fun s t => by
  obtain ⟨a, b, c, d, e, f, g, h, rfl⟩ := exists_words_8 s
  obtain ⟨a', b', c', d', e', f', g', h', rfl⟩ := exists_words_8 t
  rw [xorWords_words_8, step512_eq, step512_eq, step512_eq, xorWords_words_8]
  simp only [BitVec.shiftLeft_xor_distrib, rotateLeft_xor, (by decide : 21 < 64), xor_xor_xor_comm]

theorem viewStep1024_isLinear : IsLinear viewStep1024 := fun s t => Vector.ext fun j hj => by
  rw [getElem_xorWords, getElem_viewStep1024, getElem_viewStep1024, getElem_viewStep1024]
  simp only [getElem_xorWords]
  generalize s[0] = a, s[1] = b, t[0] = c, t[1] = d
  split_ifs
  · simp only [rotl_xor, BitVec.shiftLeft_xor_distrib, xor_xor_xor_comm]
  · rw [xor_xor_xor_comm, rotl_xor]
  · rfl

/-! ### The jumps of a linear step -/

/-- Every polynomial of a linear step is linear and commutes with the step (R285). -/
theorem gf2Jump_of_isLinear {n : Nat} {step : Vector Word n → Vector Word n} (h : IsLinear step) (table : List Word)
    (s t : Vector Word n) :
    gf2Jump step table (xorWords s t) = xorWords (gf2Jump step table s) (gf2Jump step table t) ∧
      gf2Jump step table (step s) = step (gf2Jump step table s) := by
  simp only [gf2Jump_eq_polyWalk]
  exact ⟨polyWalk_isLinear h _ s t, polyWalk_step h _ s⟩

theorem xoro1024View_xorWords (s t : Vector Word 16) (p : BitVec 4) :
    xoro1024View ⟨xorWords s t, p⟩ = xorWords (xoro1024View ⟨s, p⟩) (xoro1024View ⟨t, p⟩) :=
  Vector.ext fun j hj => by simp only [getElem_xoro1024View, getElem_xorWords]

theorem xoro1024OfView_xorWords (p : BitVec 4) (v w : Vector Word 16) :
    (xoro1024OfView p (xorWords v w)).s = xorWords (xoro1024OfView p v).s (xoro1024OfView p w).s :=
  Vector.ext fun j hj => by simp only [xoro1024OfView, Vector.getElem_ofFn, getElem_xorWords]

theorem gf2Jump1024_xorWords (table : List Word) (x : Xoro1024) (t : Vector Word 16) :
    (gf2Jump1024 table ⟨xorWords x.s t, x.p⟩).s =
      xorWords (gf2Jump1024 table x).s (gf2Jump1024 table ⟨t, x.p⟩).s := by
  have linear := fun v w => (gf2Jump_of_isLinear viewStep1024_isLinear table v w).1
  simp only [gf2Jump1024_eq, xoro1024View_xorWords, linear, xoro1024OfView_xorWords]

/-- Both states have index p + 1, and their views agree, the jump of the view commuting with its step. -/
theorem gf2Jump1024_step1024 (table : List Word) (x : Xoro1024) :
    gf2Jump1024 table (step1024 x) = step1024 (gf2Jump1024 table x) := by
  refine eq_of_xoro1024View_eq (by simp) ?_
  calc xoro1024View (gf2Jump1024 table (step1024 x))
      = gf2Jump viewStep1024 table (viewStep1024 (xoro1024View x)) := by
        rw [xoro1024View_gf2Jump1024, xoro1024View_semiconj]
    _ = viewStep1024 (gf2Jump viewStep1024 table (xoro1024View x)) :=
        (gf2Jump_of_isLinear viewStep1024_isLinear table _ (xoro1024View x)).2
    _ = xoro1024View (step1024 (gf2Jump1024 table x)) := by
        rw [xoro1024View_semiconj, xoro1024View_gf2Jump1024]

/-- Settles O45: every step is linear, that of the 16-word variants on the words seen from p. -/
theorem jumpLinear : Obligations.JumpLinear := by
  refine ⟨fun table s t => ?_, gf2Jump_of_isLinear step256_isLinear, gf2Jump_of_isLinear step512_isLinear,
    fun table x t => ⟨gf2Jump1024_xorWords table x t, gf2Jump1024_step1024 table x⟩⟩
  simp only [List.forall_mem_cons, List.not_mem_nil, false_implies, implies_true, and_true]
  exact ⟨gf2Jump_of_isLinear (step128_isLinear 24 16 37) table s t,
    gf2Jump_of_isLinear (step128_isLinear 49 21 28) table s t⟩

end Sys2Proof.Machine
end

section
/-!
SUPPORT. The arrays of the MT variants (45_mt19937.md R340 to R356). `mt_genrand` and the twist pass both write the words
of an array in ascending order, each from the array as it then stands; below the index that such a pass has reached it
holds what the whole pass leaves, and from there on what it started from.
-/

namespace Sys2Proof.Machine

section
variable {w n : Nat}

theorem mtAt_eq_getElem (mt : Vector (BitVec w) n) {k : Nat} (h : k < n) : mtAt mt k = mt[k] := by
  simp [mtAt, Vector.getD, h]

theorem mtAt_setIfInBounds_self (mt : Vector (BitVec w) n) (x : BitVec w) {k : Nat} (h : k < n) :
    mtAt (mt.setIfInBounds k x) k = x := by
  rw [mtAt_eq_getElem _ h, Vector.getElem_setIfInBounds_self]

theorem mtAt_setIfInBounds_ne (mt : Vector (BitVec w) n) (x : BitVec w) {j k : Nat} (h : k ≠ j) :
    mtAt (mt.setIfInBounds k x) j = mtAt mt j := by
  simp [mtAt, Vector.getD, Array.getElem?_setIfInBounds_ne h]

/-! ### Passes over an array in ascending order -/

section
variable (o : Nat) (f : Vector (BitVec w) n → Nat → BitVec w) (mt : Vector (BitVec w) n)

/-- The first `count` turns of a pass in place from index `o`: turn k writes word k + o, `f` of the array as it stands. -/
def ascendingPass (count : Nat) : Vector (BitVec w) n :=
  (List.range count).foldl (fun v k => v.setIfInBounds (k + o) (f v k)) mt

theorem ascendingPass_succ (count : Nat) : ascendingPass o f mt (count + 1) =
    (ascendingPass o f mt count).setIfInBounds (count + o) (f (ascendingPass o f mt count) count) := by
  rw [ascendingPass, List.range_succ, List.foldl_append]
  rfl

variable {o f mt}

/-- A word the pass does not reach is the old one. -/
theorem mtAt_ascendingPass_old {count j : Nat} (h : j < o ∨ count + o ≤ j) :
    mtAt (ascendingPass o f mt count) j = mtAt mt j := by
  induction count with
  | zero => rfl
  | succ count ih => rw [ascendingPass_succ, mtAt_setIfInBounds_ne _ _ (by omega), ih (by omega)]

/-- A word the pass has gone by is final. -/
theorem mtAt_ascendingPass_final {j c count : Nat} (hj : j < c + o) (hc : c ≤ count) :
    mtAt (ascendingPass o f mt c) j = mtAt (ascendingPass o f mt count) j := by
  induction count, hc using Nat.le_induction with
  | base => rfl
  | succ count hc ih => rw [ih, ascendingPass_succ, mtAt_setIfInBounds_ne _ _ (by omega)]

/-- A word the pass writes is made from the array at its turn. -/
theorem mtAt_ascendingPass_written {k count : Nat} (hk : k < count) (hn : k + o < n) :
    mtAt (ascendingPass o f mt count) (k + o) = f (ascendingPass o f mt k) k := by
  rw [← mtAt_ascendingPass_final (c := k + 1) (by omega) hk, ascendingPass_succ, mtAt_setIfInBounds_self _ _ hn]

/-- Turn k of a pass over the whole array finds d words on, modulo its length, an old word or, past the end, a final
one. -/
theorem mtAt_ascendingPass_mod {k d : Nat} (hk : k < n) (hd : d < n) :
    mtAt (ascendingPass 0 f mt k) ((k + d) % n) =
      if k + d < n then mtAt mt (k + d) else mtAt (ascendingPass 0 f mt n) (k + d - n) := by
  split_ifs with h
  · rw [Nat.mod_eq_of_lt h, mtAt_ascendingPass_old (.inr (by omega))]
  · rw [Nat.mod_eq_sub_mod (by omega), Nat.mod_eq_of_lt (by omega), mtAt_ascendingPass_final (by omega) hk.le]

end

variable (P : MtParams w)

/-! ### `mt_genrand` -/

/-- Turn k of `mt_genrand` makes word k + 1 (R341, R351). -/
def genrandWord (mt : Vector (BitVec w) n) (k : Nat) : BitVec w :=
  P.initMult * mtMix P mt (k + 1) + BitVec.ofNat w (k + 1)

theorem mtGenrandArray_eq_ascendingPass (s : BitVec w) : mtGenrandArray P n s =
    ascendingPass 1 (genrandWord P) ((Vector.replicate n 0).setIfInBounds 0 s) (n - 1) := rfl

theorem mtGenrand_first (s : BitVec w) (h : 0 < n) : (mtGenrand P n s).mt[0] = s := by
  rw [mtGenrand, mtFresh, ← mtAt_eq_getElem _ h, mtGenrandArray_eq_ascendingPass,
    mtAt_ascendingPass_old (.inl one_pos), mtAt_setIfInBounds_self _ _ h]

/-- The word before is final at the turn that reads it (R341, R351). -/
theorem mtGenrand_recurrence (s : BitVec w) {k : Nat} (h : k + 1 < n) :
    (mtGenrand P n s).mt[k + 1] =
      P.initMult * ((mtGenrand P n s).mt[k] ^^^ ((mtGenrand P n s).mt[k] >>> P.initShift)) + BitVec.ofNat w (k + 1) := by
  simp only [mtGenrand, mtFresh, ← mtAt_eq_getElem, mtGenrandArray_eq_ascendingPass]
  rw [mtAt_ascendingPass_written (by omega) h, genrandWord, mtMix, Nat.add_sub_cancel,
    mtAt_ascendingPass_final (Nat.lt_succ_self k) (by omega : k ≤ n - 1)]

/-! ### The twist pass -/

/-- Turn k of the twist pass, from the words k, k + 1 and k + M as they stand (R345, R355). -/
def twistWord (a b c : BitVec w) : BitVec w :=
  let y := (a &&& P.upperMask) ||| (b &&& P.lowerMask)
  c ^^^ (y >>> 1) ^^^ (if y &&& 1 = 1 then P.matrixA else 0)

/-- The magic table is read at the low bit (R345). -/
theorem and_one_eq_one_iff_getLsbD (h : 0 < w) (y : BitVec w) : y &&& 1 = 1 ↔ y.getLsbD 0 = true := by
  have one : (1 : BitVec w).toNat = 1 := BitVec.toNat_one h
  rw [← BitVec.toNat_inj, BitVec.toNat_and, one, Nat.and_one_is_mod, BitVec.getLsbD, Nat.testBit_zero,
    decide_eq_true_iff]

theorem mtTwist_eq_ascendingPass (hw : 0 < w) (mt : Vector (BitVec w) n) : mtTwist P mt =
    ascendingPass 0 (fun v k => twistWord P (mtAt v k) (mtAt v ((k + 1) % n)) (mtAt v ((k + P.m) % n))) mt n := by
  simp only [twistWord, and_one_eq_one_iff_getLsbD hw]
  rfl

/-- At turn k the words below k are the new ones, the others the old ones (R345). -/
theorem mtTwist_recurrence (hw : 0 < w) (hn : 1 < n) (hm : P.m < n) (old : Vector (BitVec w) n) {k : Nat} (hk : k < n) :
    mtAt (mtTwist P old) k = twistWord P (mtAt old k)
      (if k + 1 < n then mtAt old (k + 1) else mtAt (mtTwist P old) 0)
      (if k + P.m < n then mtAt old (k + P.m) else mtAt (mtTwist P old) (k + P.m - n)) := by
  rw [mtTwist_eq_ascendingPass P hw]
  refine (mtAt_ascendingPass_written (o := 0) hk hk).trans ?_
  congr 1
  · exact mtAt_ascendingPass_old (.inr le_rfl)
  · rw [mtAt_ascendingPass_mod hk hn, show k + 1 - n = 0 by omega]
  · exact mtAt_ascendingPass_mod hk hm

theorem mtReady_last (mt : Vector (BitVec w) n) : mtReady P ⟨mt, Fin.last n⟩ = ⟨mtTwist P mt, 0⟩ := if_pos le_rfl

/-! ### The next word -/

/-- The word at mti of the array, twisted if mti is N, and mti advanced (R346, R356). -/
theorem mtNextWord_spec (hn : 0 < n) (m : Mt w n) :
    let mt := if m.mti.val = n then mtTwist P m.mt else m.mt
    let k := if m.mti.val = n then 0 else m.mti.val
    (mtNextWord P m).1 = mt.getD k 0 ∧ (mtNextWord P m).2.mt = mt ∧ (mtNextWord P m).2.mti.val = k + 1 := by
  obtain ⟨mt, mti⟩ := m
  by_cases h : mti.val = n
  · obtain rfl : mti = Fin.last n := Fin.ext h
    rw [mtNextWord, mtReady_last]
    simpa [mtAt] using hn
  · have ready : mtReady P ⟨mt, mti⟩ = ⟨mt, mti⟩ := if_neg (Nat.not_le.2 (Nat.lt_of_le_of_ne mti.is_le h))
    have inRange : (mti.val + 1) % (n + 1) = mti.val + 1 := Nat.mod_eq_of_lt (by omega)
    rw [mtNextWord, ready]
    simpa [h, mtAt] using inRange

end

/-- Settles O32: each word is made from the final word before it. -/
theorem mersenneSeedArray : Obligations.MersenneSeedArray :=
  ⟨fun s => ⟨mtGenrand_first mt32Params s (by decide), rfl, fun _ => mtGenrand_recurrence mt32Params s⟩,
    fun s => ⟨mtGenrand_first mt64Params s (by decide), rfl, fun _ => mtGenrand_recurrence mt64Params s⟩⟩

/-- Settles O40: the turns before k have rewritten the words below k and no others. -/
theorem twistRecurrence : Obligations.TwistRecurrence :=
  ⟨fun old _ => mtTwist_recurrence mt32Params (by decide) (by decide) (by decide) old,
    fun old _ => mtTwist_recurrence mt64Params (by decide) (by decide) (by decide) old,
    mtReady_last mt32Params, mtReady_last mt64Params⟩

/-- Settles O41: the native output is the tempered word at mti of the array that is ready. -/
theorem mersenneNext : Obligations.MersenneNext := by
  refine ⟨fun s i m h => ?_, fun s i m h => ?_⟩
  · intro mt k y y1 y2 y3
    obtain ⟨word, array, index⟩ := mtNextWord_spec mt32Params (by decide) m
    refine ⟨(mt32Next m).2, array, index, ?_⟩
    rw [exec_next32_of_holds h rfl, nextNative, mt32Next, word]
    rfl
  · intro mt k x x1 x2 x3
    obtain ⟨word, array, index⟩ := mtNextWord_spec mt64Params (by decide) m
    refine ⟨(mt64Next m).2, array, index, exec_next_of_nextNative h rfl ?_ rfl⟩
    rw [nextNative, mt64Next, word]
    rfl

end Sys2Proof.Machine
end

section
/-!
SUPPORT. NEXT on SFC64 (46_sfc64.md R381), JSF64 (47_jsf64.md R401) and splitmix64 (41_splitmix64.md R221): each `next_v`
over the words before the step.
-/

namespace Sys2Proof.Machine

/-- R381, over the words before the step: the sum is the output and a term of the new c. -/
theorem sfcNext_eq (a b c n : Word) : sfcNext ⟨a, b, c, n⟩ =
    (a + b + n, ⟨b ^^^ (b >>> 11), c + (c <<< 3), c.rotateLeft 24 + (a + b + n), n + 1⟩) := by
  rw [← rotl_eq_rotateLeft c (by decide)]
  rfl

/-- R401, over the words before the step: the new d is the output. -/
theorem jsfNext_eq (a b c d : Word) :
    let e := a - b.rotateLeft 7
    let a' := b ^^^ c.rotateLeft 13
    jsfNext ⟨a, b, c, d⟩ = (e + a', ⟨a', c + d.rotateLeft 37, d + e, e + a'⟩) := by
  rw [← rotl_eq_rotateLeft b (by decide), ← rotl_eq_rotateLeft c (by decide), ← rotl_eq_rotateLeft d (by decide)]
  rfl

/-- Settles O35: splitmix64's rule has no rotate and is the statement's formula as it stands; the rotates of the other two
are the library's. -/
theorem addRotateNext : Obligations.AddRotateNext := by
  refine ⟨fun s i x h => ?_, fun s i a b c n h => ?_, fun s i a b c d h => ?_⟩
  · exact exec_next_of_nextNative h rfl rfl rfl
  · have next := sfcNext_eq a b c n
    exact exec_next_of_nextNative h rfl (congrArg Prod.fst next) (congrArg Engine.sfc64 (congrArg Prod.snd next))
  · have next := jsfNext_eq a b c d
    exact exec_next_of_nextNative h rfl (congrArg Prod.fst next) (congrArg Engine.jsf64 (congrArg Prod.snd next))

end Sys2Proof.Machine
end

section
/-!
SUPPORT. The states on which the MWC jumps equal stepping (48_mwc.md R425, 49_modular_jump.md R450 to R456): a number
below M is what its unpacking packs to, so every jump leaves a canonical state, and equals its stride of steps exactly
when these leave one too.
-/

namespace Sys2Proof.Machine

/-! ### Packing gives back the number that was unpacked -/

theorem digitSum_congr {f g : Nat → Nat} {n : Nat} (h : ∀ j, j < n → f j = g j) : digitSum f n = digitSum g n :=
  Finset.sum_congr rfl fun j hj => by rw [h j (Finset.mem_range.1 hj)]

/-- The base-2^64 digits of v below position n make up the remainder of v. -/
theorem digitSum_of_digits (v n : Nat) : digitSum (fun j => v / 2 ^ (64 * j) % 2 ^ 64) n = v % 2 ^ (64 * n) := by
  induction n with
  | zero => simp [digitSum, Nat.mod_one]
  | succ n ih => rw [digitSum_succ_top, ih, Nat.mul_succ, Nat.pow_add, Nat.mod_mul, Nat.mul_comm (v / _ % _)]

/-- A number of n digits is below `2^(64 n)`. -/
theorem digitSum_lt {f : Nat → Nat} (hf : ∀ j, f j < 2 ^ 64) (n : Nat) : digitSum f n < 2 ^ (64 * n) := by
  rw [digitSum_congr fun j hj => (digitSum_digit hf hj).symm, digitSum_of_digits]
  exact Nat.mod_lt _ (Nat.two_pow_pos _)

/-- The words and the carry of an unpacked number are its digits (R450). -/
theorem mwcDigit_mwcUnpack {r j : Nat} (v : Nat) (hj : j < r + 1) :
    mwcDigit (mwcUnpack r v) j = v / 2 ^ (64 * j) % 2 ^ 64 := by
  obtain hj | rfl := Nat.lt_succ_iff_lt_or_eq.1 hj
  · rw [mwcDigit_word _ hj]
    simp [mwcUnpack]
  · rw [mwcDigit_carry, mwcUnpack, BitVec.toNat_ofNat]

/-- Packing gives back every number that fits in the state (R450). -/
theorem mwcPack_mwcUnpack {r v : Nat} (h : v < 2 ^ (64 * (r + 1))) : mwcPack (mwcUnpack r v) = v := by
  rw [mwcPack_eq_digitSum, digitSum_congr fun j => mwcDigit_mwcUnpack v, digitSum_of_digits, Nat.mod_eq_of_lt h]

/-! ### Canonical states -/

/-- A state whose carry is at least 2 below A is canonical. -/
theorem mwcCanonical_of_carry {r : Nat} {mult : Word} {s : Mwc r} (hc : s.c.toNat + 2 ≤ mult.toNat) :
    mwcCanonical mult s := by
  have words := digitSum_lt (mwcDigit_lt s) r
  have carry := Nat.mul_le_mul_right (2 ^ (64 * r)) hc
  rw [Nat.add_mul] at carry
  rw [mwcCanonical, mwcPack_eq_digitSum, digitSum_succ_top, mwcDigit_carry, mwcModulus]
  omega

/-- A seeded state is canonical, its carry being 1 (R425). -/
theorem mwcCanonical_mwcInit {r : Nat} {mult : Word} (h : 3 ≤ mult.toNat) (u : List Word) :
    mwcCanonical mult (mwcInit r u) :=
  mwcCanonical_of_carry h

section
variable {n k j : Nat} {mult : Word} (h : mult ≠ 0)
include h

/-- Numbers below M fit in the state (R450). -/
theorem mwcModulus_lt : mwcModulus (n + 1) mult < 2 ^ (64 * (n + 1 + 1)) := by
  have bound := Nat.mul_le_mul_right (2 ^ (64 * (n + 1))) mult.isLt.le
  rw [← mwcModulus_add_one h, ← Nat.pow_add, Nat.add_comm 64, ← Nat.mul_succ] at bound
  exact bound

theorem mwcModulus_pos : 0 < mwcModulus (n + 1) mult := by
  have := Nat.le_mul_of_pos_left (2 ^ (64 * (n + 1))) (BitVec.toNat_pos_of_ne_zero h)
  have := Nat.one_lt_two_pow (n := 64 * (n + 1)) (by omega)
  unfold mwcModulus
  omega

/-- A jump packs to the product modulo M, for every state (R451, R457). -/
theorem mwcPack_mwcJump (s : Mwc (n + 1)) :
    mwcPack (mwcJump mult j s) = mwcPack s * j % mwcModulus (n + 1) mult :=
  mwcPack_mwcUnpack ((Nat.mod_lt _ (mwcModulus_pos h)).trans (mwcModulus_lt h))

/-- Every jump leaves a canonical state (R456). -/
theorem mwcCanonical_mwcJump (s : Mwc (n + 1)) : mwcCanonical mult (mwcJump mult j s) := by
  rw [mwcCanonical, mwcPack_mwcJump h]
  exact Nat.mod_lt _ (mwcModulus_pos h)

/-- A jump by the inverse of a stride's power of 2^64 is that many steps exactly when these leave a canonical state: the
two packed values are always congruent modulo M (R452), and the jump's is the one below M (R456). -/
theorem mwcJump_eq_iterate_iff (hj : InvertsStride (mwcModulus (n + 1) mult) k j) (s : Mwc (n + 1)) :
    mwcJump mult j s = (mwcStep mult)^[2 ^ k] s ↔ mwcCanonical mult ((mwcStep mult)^[2 ^ k] s) := by
  constructor
  · intro stride
    exact stride ▸ mwcCanonical_mwcJump h s
  · intro canonical
    rw [mwcJump, Nat.mod_eq_of_modEq (hj.mul_modEq (mwcPack_iterate_modEq h s _)) canonical, mwcUnpack_mwcPack]

end

/-- Settles O50 (`mwcCanonical` itself is the model's predicate): a seeded carry is 1, a step keeps the packed
value below M, and a jump's is a remainder modulo M. -/
theorem mwcCanonicalStates : Obligations.MwcCanonical := by
  have h128 : mwc128A ≠ 0 := by decide
  have h192 : mwc192A ≠ 0 := by decide
  have h256 : mwc256A ≠ 0 := by decide
  exact ⟨fun _ _ _ =>
    ⟨mwcCanonical_mwcInit (by decide) _, mwcCanonical_mwcInit (by decide) _, mwcCanonical_mwcInit (by decide) _⟩,
    fun m => ⟨mwcCanonical_mwcStep h128, fun _ => mwcCanonical_mwcJump h128 m⟩,
    fun m => ⟨mwcCanonical_mwcStep h192, fun _ => mwcCanonical_mwcJump h192 m⟩,
    fun m => ⟨mwcCanonical_mwcStep h256, fun _ => mwcCanonical_mwcJump h256 m⟩,
    fun m => ⟨mwcJump_eq_iterate_iff h128 mwc128JumpConst_invertsStride m,
      mwcJump_eq_iterate_iff h128 mwc128LongJumpConst_invertsStride m⟩,
    fun m => ⟨mwcJump_eq_iterate_iff h192 mwc192JumpConst_invertsStride m,
      mwcJump_eq_iterate_iff h192 mwc192LongJumpConst_invertsStride m⟩,
    fun m => ⟨mwcJump_eq_iterate_iff h256 mwc256JumpConst_invertsStride m,
      mwcJump_eq_iterate_iff h256 mwc256LongJumpConst_invertsStride m⟩⟩

end Sys2Proof.Machine
end

section
/-!
SUPPORT. NEXT on the MWC variants (48_mwc.md R422 to R424, R428): the step of each width over the words before it, and
the bound on the second sum of GMWC128.
-/

namespace Sys2Proof.Machine

/-- A word made of a number holds its low half: the newest word may be written either way (R422). -/
theorem ofNat_low_half (t : Nat) : BitVec.ofNat 64 (t % 2 ^ 64) = BitVec.ofNat 64 t :=
  BitVec.eq_of_toNat_eq (by simp)

/-- The second sum of R428 is at most (A1 + 1 + MINUSA0) (2^64 - 1), so that its upper half fits in the carry. -/
theorem gmwcSum_gmwcT_le (g : Gmwc) :
    gmwcSum (gmwcT g) ≤ (gmwcA1.toNat + 1 + gmwcMinusA0.toNat) * (2 ^ 64 - 1) := by
  have product := Nat.mul_le_mul_left gmwcA1.toNat (Nat.le_sub_one_of_lt g.x.isLt)
  have carry := Nat.le_sub_one_of_lt g.c.isLt
  have second := Nat.mul_le_mul_left gmwcMinusA0.toNat (Nat.le_sub_one_of_lt (gmwcOfSValue (gmwcT g)).x.isLt)
  rw [Nat.add_mul, Nat.add_mul, Nat.one_mul, gmwcSum, gmwcT]
  exact Nat.add_le_add (Nat.add_le_add product carry) second

/-- Settles O42: t fits in two words for every multiplier; GMWC128's second sum is that of the s-value t. -/
theorem multiplyCarryNext : Obligations.MultiplyCarryNext := by
  refine ⟨⟨fun s i x c h => ⟨mwcT_lt mwc128A ⟨#v[x], c⟩, ?_⟩, fun s i x y c h => ⟨mwcT_lt mwc192A ⟨#v[x, y], c⟩, ?_⟩,
    fun s i x y z c h => ⟨mwcT_lt mwc256A ⟨#v[x, y, z], c⟩, ?_⟩⟩, fun s i x c h => ?_⟩
  · rw [ofNat_low_half]
    exact exec_next_of_nextNative h rfl rfl rfl
  · rw [ofNat_low_half]
    exact exec_next_of_nextNative h rfl rfl rfl
  · rw [ofNat_low_half]
    exact exec_next_of_nextNative h rfl rfl rfl
  · intro t x' u
    have sum : u = gmwcSum (gmwcT ⟨x, c⟩) := by
      rw [gmwcSum, ← gmwcNext_eq]
      rfl
    refine ⟨?_, ?_, exec_next_of_nextNative h rfl rfl rfl⟩
    · rw [sum]
      exact gmwcSum_gmwcT_le _
    · rw [sum]
      exact gmwcSum_low _

end Sys2Proof.Machine
end

section
/-!
SUPPORT. Why a command is refused (60_exceptions.md R480 to R490): its rule stops in exactly the cases that the error codes
are given for, once the checks before them have passed.
-/

namespace Sys2Proof.Machine

/-! ### How a rule stops -/

/-- A rule whose last part cannot stop stops where its first part does. -/
theorem bind_pure_error {α β : Type} {x : Except ErrorCode α} {f : α → β} {p : ErrorCode} :
    (x >>= fun a => pure (f a)) = .error p ↔ x = .error p := by
  cases x <;> simp

/-- A rule that starts with a check stops by the check, or passes it and stops later. -/
theorem check_bind_error {β : Type} {c : Bool} {e p : ErrorCode} {x : Except ErrorCode β} :
    (check c e >>= fun _ => x) = .error p ↔ (p = e ∧ c = false) ∨ (c = true ∧ x = .error p) := by
  cases c <;> simp [@eq_comm _ p]

/-- No two errors share a code (R481). -/
theorem errorValue_inj {e p : ErrorCode} : errorValue e = errorValue p ↔ e = p := by
  refine ⟨?_, congrArg errorValue⟩
  cases e <;> cases p <;> decide

/-- ERR shows the error that the command's rule stopped with (R35, R481). -/
theorem finish_err_iff {s t : State} {b : Body} {p : ErrorCode} (h : finish s b = .next t) :
    t.err = errorValue p ↔ b = .error p := by
  obtain ⟨u, rfl, rfl⟩ | ⟨e, rfl, rfl⟩ := finish_eq_next h
  · exact iff_of_false (errorValue_ne_zero p).symm nofun
  · simp [errorValue_inj]

/-! ### The rules of a seed -/

/-- The common seeding path refuses a seed by the length rule or by the zero rule (R163, R164, R166). -/
theorem seedCommon_error {v : Variant} {e : List Word} {zok lok : Bool} {p : ErrorCode} :
    seedCommon v e zok lok = .error p ↔ p = .invalidSeed ∧
      ((e.length ≠ seedCount v ∧ lok = false) ∨ (allZero (checkedElements v e) = true ∧ zok = false)) := by
  simp only [seedCommon, check_bind_error, pure_eq_ok, reduceCtorEq, and_false, or_false, lengthOk,
    Bool.or_eq_false_iff, Bool.or_eq_true, decide_eq_false_iff_not, decide_eq_true_eq, Bool.not_eq_false']
  by_cases hlen : e.length = seedCount v <;> cases lok <;> simp [hlen]

/-- An element is 0 exactly when the bits it keeps are (R162). -/
theorem truncElement_eq_zero_iff (v : Variant) (x : Word) :
    truncElement (elementWidth v) x = 0 ↔ x.toNat % 2 ^ elementWidth v = 0 := by
  have fits : x.toNat % 2 ^ elementWidth v < 2 ^ 64 := (Nat.mod_le _ _).trans_lt x.isLt
  rw [truncElement, ← BitVec.toNat_inj, BitVec.toNat_ofNat, Nat.mod_eq_of_lt fits]
  rfl

/-- Elements taken from words numbered from 0 are all 0 exactly when the bits kept of each word are (R162, R164). -/
theorem allZero_elements_iff (v : Variant) (n : Nat) (word : Nat → Word) :
    allZero ((List.range n).map fun k => truncElement (elementWidth v) (word k)) = true ↔
      ∀ k, k < n → (word k).toNat % 2 ^ elementWidth v = 0 := by
  simp only [allZero, List.all_map, List.all_eq_true, List.mem_range, Function.comp_apply, decide_eq_true_eq,
    truncElement_eq_zero_iff]

/-- The elements of SEED and SEED_KEY, by their numbers (R161, R168). -/
theorem map_readOpnds (f : Word → Word) (s : State) (n : Nat) :
    (readOpnds s n).map f = (List.range n).map fun k => f (s.opnd k) :=
  List.map_map

section
variable {s : State} {var : BitVec 6} {zok lok : Bool} {cnt : BitVec 10} {inst : BitVec 4} {v : Variant} {p : ErrorCode}

/-- SEED on a variant and an instance that exist (R161, R482). -/
theorem seedBody_error (hv : seedVariant s var inst = .ok v) : seedBody s var zok lok cnt inst = .error p ↔
    p = .invalidSeed ∧ InvalidSeedCase s v (.seed var zok lok cnt inst) := by
  simp only [seedBody, hv, bind_ok, bind_pure_error, seedCommon_error, map_readOpnds, List.length_map,
    List.length_range, checkedElements_range, allZero_elements_iff, InvalidSeedCase, operandElement]

/-- SEED_BYTES on a variant and an instance that exist (R167, R482). -/
theorem seedBytesBody_error (hv : seedVariant s var inst = .ok v) : seedBytesBody s var zok lok cnt inst = .error p ↔
    p = .invalidSeed ∧ InvalidSeedCase s v (.seedBytes var zok lok cnt inst) := by
  obtain ⟨hb0, hb8⟩ := elementWidth_div_bounds v
  simp only [seedBytesBody, hv, bind_ok, check_bind_error, bind_pure_error, seedBytesOf_readOpnds, seedCommon_error,
    InvalidSeedCase, Bool.or_eq_false_iff, Bool.or_eq_true, decide_eq_false_iff_not, decide_eq_true_eq]
  generalize elementWidth v / 8 = b at hb0 hb8
  have count : (byteElements b (completeBytes b (operandBytes s cnt.toNat))).length = (cnt.toNat + (b - 1)) / b := by
    rw [byteElements_completeBytes hb0, List.length_map, List.length_range, operandBytes_length]
  rw [count, allZero_operandBytes_iff hb0 hb8]
  by_cases whole : cnt.toNat % b = 0 <;> cases lok <;> simp [whole]

/-- SEED_KEY on a variant and an instance that exist: the capability check comes first (R168, R482, R490). -/
theorem seedKeyBody_error (hv : seedVariant s var inst = .ok v) : seedKeyBody s var zok cnt inst = .error p ↔
    (p = .unsupportedOperation ∧ isMt v = false) ∨
      (p = .invalidSeed ∧ InvalidSeedCase s v (.seedKey var zok cnt inst)) := by
  have empty : cnt = 0 ↔ cnt.toNat = 0 := BitVec.toNat_inj.symm
  simp only [seedKeyBody, hv, bind_ok, check_bind_error, pure_eq_ok, reduceCtorEq, and_false, or_false, map_readOpnds,
    Bool.or_eq_false_iff, Bool.not_eq_false', allZero_elements_iff, InvalidSeedCase, operandElement,
    decide_eq_false_iff_not, decide_eq_true_eq, ne_eq, not_not, empty]
  by_cases hcnt : cnt.toNat = 0 <;> cases isMt v <;> simp [hcnt]

/-- SEED_ENTROPY's elements are as many as the variant takes, so only the zero rule can refuse them (R169, R482). -/
theorem seedCommon_entropyWords_error :
    seedCommon v ((s.entropyWords (seedCount v)).map (truncElement (elementWidth v))) false false = .error p ↔
      p = .invalidSeed ∧ InvalidSeedCase s v (.seedEntropy var inst) := by
  have elements : (s.entropyWords (seedCount v)).map (truncElement (elementWidth v)) =
      (List.range (seedCount v)).map fun j => truncElement (elementWidth v) (Config.entropy (s.draws + j)) :=
    List.map_map
  have count := (List.length_map (as := List.range (seedCount v)) fun j =>
    truncElement (elementWidth v) (Config.entropy (s.draws + j))).trans List.length_range
  rw [elements, seedCommon_error, checkedElements_of_length count, allZero_elements_iff]
  simp [count, InvalidSeedCase]

end

/-! ### The variants that do not define an operation -/

/-- ADVANCE's engine stops on every variant but PCG32 and PCG64 (R176, R483). -/
theorem advanceEngine_error {s : State} {e : Engine} {p : ErrorCode} : advanceEngine s e = .error p ↔
    p = .unsupportedOperation ∧ engineVariant e ∉ [Variant.pcg32, .pcg64] := by
  cases e <;> simp [advanceEngine, engineVariant, @eq_comm _ p]

/-- JUMP is refused on the variants that do not define it (R174, R483). -/
theorem jumpEngine_eq_none_iff (e : Engine) : jumpEngine e = none ↔
    engineVariant e ∈ [Variant.splitmix64, .mt19937, .mt19937w64, .sfc64, .jsf64] := by
  rw [← Option.not_isSome_iff_eq_none, isSome_jumpEngine, not_not]

/-- LONG_JUMP is refused on the variants that do not define it (R175, R483). -/
theorem longJumpEngine_eq_none_iff (e : Engine) : longJumpEngine e = none ↔
    engineVariant e ∈ [Variant.splitmix64, .mt19937, .mt19937w64, .sfc64, .jsf64, .gmwc128] := by
  rw [← Option.not_isSome_iff_eq_none, isSome_longJumpEngine, not_not]

/-! ### The writes that are not legal -/

/-- No write beyond an array (R65). -/
theorem arrayWrite_eq_none {n j : Nat} (h : n ≤ j) (s : Vector Word n) (v : Word) : arrayWrite s j v = none :=
  dif_neg (Nat.not_lt_of_le h)

/-- No write of a 16-word state beyond p, and none of p above 15 (R65). -/
theorem xoro1024Write_eq_none {x : Xoro1024} {j : Nat} {v : Word} (h : 17 ≤ j ∨ ¬ (j = 16 → v.toNat ≤ 15)) :
    xoro1024Write x j v = none := by
  rw [xoro1024Write, dif_neg (by omega), if_neg (by omega)]

/-- No write of an MWC state beyond its carry (R65). -/
theorem mwcWrite_eq_none {r j : Nat} (h : r + 1 ≤ j) (s : Mwc r) (v : Word) : mwcWrite s j v = none := by
  rw [mwcWrite, dif_neg (by omega), if_neg (by omega)]

/-- No write of an MT state beyond mti, none of a word that is too wide, and none of mti above N (R65). -/
theorem mtWrite_eq_none {w n : Nat} {s : Mt w n} {j : Nat} {v : Word}
    (h : n + 1 ≤ j ∨ ¬ if j < n then v.toNat < 2 ^ w else v.toNat ≤ n) : mtWrite s j v = none := by
  unfold mtWrite
  split at h
  · rw [dif_pos ‹_›, if_neg (by omega)]
  · rw [dif_neg ‹_›, if_neg (by omega)]

/-- A write that is not legal is not defined (R65), on every variant. -/
theorem writeStateVector_eq_none {e : Engine} {j : Nat} {v : Word}
    (h : stateWords (engineVariant e) ≤ j ∨ legalValue (engineVariant e) j v = false) :
    writeStateVector e j v = none := by
  have outside : (legalValue (engineVariant e) j v = true) → stateWords (engineVariant e) ≤ j := fun hv =>
    h.resolve_right (by simp [hv])
  cases e with
  | splitmix64 _ => exact if_neg (Nat.ne_of_gt (outside rfl))
  | xoroshiro128p s | xoroshiro128pp s | xoroshiro128ss s | xoshiro256p s | xoshiro256pp s | xoshiro256ss s
  | xoshiro512p s | xoshiro512pp s | xoshiro512ss s =>
    exact congrArg (Option.map _) (arrayWrite_eq_none (outside rfl) s v)
  | xoroshiro1024s x | xoroshiro1024pp x | xoroshiro1024ss x =>
    exact congrArg (Option.map _) (xoro1024Write_eq_none (h.imp_right of_decide_eq_false))
  | mwc128 s | mwc192 s | mwc256 s =>
    exact congrArg (Option.map _) (mwcWrite_eq_none (outside rfl) s v)
  | mt19937 s =>
    refine congrArg (Option.map _) (mtWrite_eq_none (h.imp_right fun hv fits => ?_))
    exact Bool.eq_false_iff.1 hv (by simpa [legalValue, engineVariant] using fits)
  | mt19937w64 s =>
    refine congrArg (Option.map _) (mtWrite_eq_none (h.imp_right fun hv => ?_))
    have index : ¬ (j = 312 → v.toNat ≤ 312) := of_decide_eq_false hv
    rw [if_neg (by omega)]
    omega
  | pcg32 s | gmwc128 s =>
    obtain ⟨k, rfl⟩ := Nat.exists_eq_add_of_le' (outside rfl)
    rfl
  | pcg64 s | sfc64 s | jsf64 s =>
    obtain ⟨k, rfl⟩ := Nat.exists_eq_add_of_le' (outside rfl)
    rfl

/-- A write is defined exactly when it is legal (R65). -/
theorem writeStateVector_eq_none_iff {e : Engine} {j : Nat} {v : Word} : writeStateVector e j v = none ↔
    stateWords (engineVariant e) ≤ j ∨ legalValue (engineVariant e) j v = false := by
  refine ⟨fun h => ?_, writeStateVector_eq_none⟩
  by_contra! legal
  obtain ⟨e', written, -, -⟩ := writeStateVector_legal legal.1 (Bool.eq_true_of_not_eq_false legal.2)
  simp [h] at written

/-! ### Why a command is refused -/

/-- The seed of a seeding command whose VAR is assigned is not allowed (R482). -/
def SeedFails (s : State) (i : Instr) : Prop :=
  ∃ c v, seedVar i = some c ∧ variantOfCode? c = some v ∧ InvalidSeedCase s v i

/-- A state access has an index outside the state vector, or a value that the field cannot hold (R65, R487). -/
def AccessFails (s : State) : Instr → Prop
  | .stateRead k => stateWords (engineVariant (s.inst k).engine) ≤ (s.opnd 0).toNat
  | .stateWrite k => stateWords (engineVariant (s.inst k).engine) ≤ (s.opnd 0).toNat ∨
      legalValue (engineVariant (s.inst k).engine) (s.opnd 0).toNat (s.opnd 1) = false
  | _ => False

/-- A check of the command's own, after the range checks and the check for a seeded instance, stops it with error `p`
(R490). -/
def CheckFails (s : State) (i : Instr) (p : ErrorCode) : Prop :=
  (p = .unsupportedOperation ∧ UnsupportedCase s i) ∨ (p = .invalidSeed ∧ SeedFails s i) ∨
    (p = .invalidStateAccess ∧ AccessFails s i)

section
variable {s t : State} {p : ErrorCode}

/-- For a command that is neither a seeding command nor a state access only the capability check is left. -/
theorem checkFails_of_capability {i : Instr} (hseed : seedVar i = none) (haccess : ¬ AccessFails s i) :
    CheckFails s i p ↔ p = .unsupportedOperation ∧ UnsupportedCase s i := by
  simp [CheckFails, SeedFails, hseed, haccess]

/-- A seeding command on a variant that exists is refused by R482, or by the capability check of SEED_KEY. -/
theorem checkFails_of_seedVar {i : Instr} {c : BitVec 6} {v : Variant} (hc : seedVar i = some c)
    (hv : variantOfCode? c = some v) (haccess : ¬ AccessFails s i) : CheckFails s i p ↔
      (p = .unsupportedOperation ∧ UnsupportedCase s i) ∨ (p = .invalidSeed ∧ InvalidSeedCase s v i) := by
  simp [CheckFails, SeedFails, hc, hv, haccess]

/-- ERR after a command that has passed the range checks and whose instance is seeded. -/
theorem exec_err_of_checks {i : Instr} (hwf : i.wellFormed s.ninst = true) (hseeded : s.seededFor i)
    (h : exec i s = .next t) : t.err = errorValue p ↔ CheckFails s i p := by
  have engine : ∀ {k}, instInRange s.ninst k = true → neededInst i = some k →
      engineOf s k = .ok (s.inst k).engine := fun hk hi =>
    engineOf_ok.2 ⟨of_decide_eq_true hk, hseeded _ hi, rfl⟩
  have variant : ∀ {var k}, (instInRange s.ninst k && varAssigned var) = true →
      ∃ v, variantOfCode? var = some v ∧ seedVariant s var k = .ok v := fun hk => by
    obtain ⟨hinst, hvar⟩ := Bool.and_eq_true_iff.1 hk
    obtain ⟨v, hv⟩ := Option.isSome_iff_exists.1 hvar
    exact ⟨v, hv, seedVariant_ok.2 ⟨of_decide_eq_true hinst, hv⟩⟩
  cases i with
  | nop =>
    rw [finish_err_iff (s := s) (b := .ok s) h, checkFails_of_capability rfl id]
    simp [UnsupportedCase]
  | seed var zok lok cnt inst =>
    obtain ⟨v, hc, hv⟩ := variant hwf
    rw [finish_err_iff h, seedBody_error hv, checkFails_of_seedVar rfl hc id]
    simp [UnsupportedCase]
  | seedBytes var zok lok cnt inst =>
    obtain ⟨v, hc, hv⟩ := variant hwf
    rw [finish_err_iff h, seedBytesBody_error hv, checkFails_of_seedVar rfl hc id]
    simp [UnsupportedCase]
  | seedKey var zok cnt inst =>
    obtain ⟨v, hc, hv⟩ := variant hwf
    rw [finish_err_iff h, seedKeyBody_error hv, checkFails_of_seedVar rfl hc id]
    simp [UnsupportedCase, hc, isMt]
  | seedEntropy var inst =>
    obtain ⟨v, hc, hv⟩ := variant hwf
    simp only [exec, execSeedEntropy, hv, seedFromEntropy] at h
    rw [finish_err_iff h, checkFails_of_seedVar rfl hc id]
    refine bind_pure_error.trans ((seedCommon_entropyWords_error (var := var) (inst := inst)).trans ?_)
    simp [UnsupportedCase]
  | next inst =>
    rw [finish_err_iff h, checkFails_of_capability rfl id, nextBody, engine hwf rfl, bind_ok]
    simp [UnsupportedCase]
  | next32 inst =>
    rw [finish_err_iff h, checkFails_of_capability rfl id, next32Body, engine hwf rfl, bind_ok, check_bind_error]
    simp [UnsupportedCase, native32]
  | jump inst =>
    rw [finish_err_iff h, checkFails_of_capability rfl id, jumpBody, engine hwf rfl, bind_ok, bind_pure_error,
      orUnsupported_error, jumpEngine_eq_none_iff, and_comm]
    rfl
  | longJump inst =>
    rw [finish_err_iff h, checkFails_of_capability rfl id, longJumpBody, engine hwf rfl, bind_ok, bind_pure_error,
      orUnsupported_error, longJumpEngine_eq_none_iff, and_comm]
    rfl
  | advance inst =>
    rw [finish_err_iff h, checkFails_of_capability rfl id, advanceBody, engine hwf rfl, bind_ok, bind_pure_error,
      advanceEngine_error]
    rfl
  | clone inst dst =>
    obtain ⟨hinst, hdst⟩ := Bool.and_eq_true_iff.1 hwf
    rw [finish_err_iff h, checkFails_of_capability rfl id]
    simp [cloneBody, checkInst_pass (of_decide_eq_true hinst), checkInst_pass (of_decide_eq_true hdst),
      seededEngine_ok.2 ⟨hseeded _ rfl, rfl⟩, UnsupportedCase]
  | stateRead inst =>
    rw [finish_err_iff h, stateReadBody, engine hwf rfl, bind_ok, CheckFails, AccessFails, ← stateVector_length,
      ← List.getElem?_eq_none_iff]
    split <;> simp [*, UnsupportedCase, SeedFails, seedVar, @eq_comm _ p]
  | stateWrite inst =>
    rw [finish_err_iff h, stateWriteBody, engine hwf rfl, bind_ok, CheckFails, AccessFails,
      ← writeStateVector_eq_none_iff]
    split <;> simp [*, UnsupportedCase, SeedFails, seedVar, @eq_comm _ p]
  | query inst =>
    rw [finish_err_iff h, checkFails_of_capability rfl id, queryBody, engine hwf rfl, bind_ok]
    simp [UnsupportedCase]

/-- The instance that the command needs is not seeded (R485). -/
def UnseededCase (s : State) (i : Instr) : Prop := ∃ k, neededInst i = some k ∧ (s.inst k).valid = false

/-- The two names for check 7a of R490: the case that it stops, and the statements' word for passing it. -/
theorem not_unseededCase_iff {i : Instr} : ¬ UnseededCase s i ↔ s.seededFor i := by
  simp [UnseededCase]

/-- Why a command is refused, error by error (R482 to R487): each cause counts once the checks before it have passed
(R490). -/
def RefusedFor (s : State) (i : Instr) : ErrorCode → Prop
  | .illegalCommand => i.wellFormed s.ninst = false
  | .unseeded => i.wellFormed s.ninst = true ∧ UnseededCase s i
  | .unsupportedOperation => i.wellFormed s.ninst = true ∧ ¬ UnseededCase s i ∧ UnsupportedCase s i
  | .invalidSeed => i.wellFormed s.ninst = true ∧ SeedFails s i
  | .invalidStateAccess => i.wellFormed s.ninst = true ∧ ¬ UnseededCase s i ∧ AccessFails s i

/-- A seeding command needs no seeded instance (R485). -/
theorem not_unseededCase_of_seedFails {i : Instr} (h : SeedFails s i) : ¬ UnseededCase s i := by
  obtain ⟨c, v, hc, -⟩ := h
  rintro ⟨k, hk, -⟩
  cases i with
  | seed _ _ _ _ _ | seedBytes _ _ _ _ _ | seedKey _ _ _ _ | seedEntropy _ _ => cases hk
  | _ => cases hc

/-- ERR after a command tells why it was refused, and shows no error if there is no cause. -/
theorem exec_err_iff {i : Instr} (h : exec i s = .next t) : t.err = errorValue p ↔ RefusedFor s i p := by
  cases hwf : i.wellFormed s.ninst with
  | false =>
    obtain rfl : s.refuse .illegalCommand = t := by simpa [exec_illFormed hwf] using h
    rw [State.refuse_err, errorValue_inj]
    cases p <;> simp [RefusedFor, hwf]
  | true =>
    by_cases hu : UnseededCase s i
    · obtain ⟨k, hk, hv⟩ := id hu
      obtain rfl : s.refuse .unseeded = t := by simpa [exec_unseeded hk hwf hv] using h
      have hseed : ¬ SeedFails s i := fun hs => not_unseededCase_of_seedFails hs hu
      rw [State.refuse_err, errorValue_inj]
      cases p <;> simp [RefusedFor, hwf, hu, hseed]
    · rw [exec_err_of_checks hwf (not_unseededCase_iff.1 hu) h]
      cases p <;> simp [RefusedFor, CheckFails, hwf, hu]

/-- A command that ends in an error leaves its code in ERR, sets STICKY, and changes nothing else (R484); the words it has
drawn from the entropy port are drawn (log entry 9). -/
theorem exec_rollback {i : Instr} (h : exec i s = .next t) (he : t.err ≠ 0) :
    t = { s.refusedAs t.err with draws := t.draws } := by
  obtain ⟨n, ⟨e, rfl⟩ | ⟨u, -, rfl⟩⟩ := exec_cases h
  · rfl
  · exact absurd rfl he

/-- A command that has a cause to be refused is, and changes nothing else (R484). SEED_ENTROPY is left out: it may have
taken words from the entropy port. -/
theorem exec_of_refusedFor {i : Instr} (hi : ∀ var k, i ≠ .seedEntropy var k) (h : RefusedFor s i p) :
    exec i s = .next (s.refusedAs (errorValue p)) := by
  obtain ⟨t, ht, -⟩ := exec_completes i s
  have herr : t.err = errorValue p := (exec_err_iff ht).2 h
  have rollback := exec_rollback ht (herr ▸ errorValue_ne_zero p)
  rw [herr, exec_draws hi ht] at rollback
  exact ht.trans (congrArg _ rollback)

/-- R481 lists for each command every error that it has a cause for. -/
theorem errorValue_mem_reportedCodes {i : Instr} (h : RefusedFor s i p) : errorValue p ∈ reportedCodes i := by
  cases p with
  | illegalCommand =>
    cases i with
    | nop => cases h
    | _ => simp [reportedCodes, errorValue]
  | unseeded =>
    obtain ⟨-, k, hk, -⟩ := h
    cases i with
    | nop | seed _ _ _ _ _ | seedBytes _ _ _ _ _ | seedKey _ _ _ _ | seedEntropy _ _ => cases hk
    | _ => simp [reportedCodes, errorValue]
  | unsupportedOperation =>
    obtain ⟨-, -, hcase⟩ := h
    cases i with
    | seedKey _ _ _ _ | next32 _ | jump _ | longJump _ | advance _ => simp [reportedCodes, errorValue]
    | _ => exact hcase.elim
  | invalidSeed =>
    obtain ⟨-, c, v, hc, -⟩ := h
    cases i with
    | seed _ _ _ _ _ | seedBytes _ _ _ _ _ | seedKey _ _ _ _ | seedEntropy _ _ => simp [reportedCodes, errorValue]
    | _ => cases hc
  | invalidStateAccess =>
    obtain ⟨-, -, hfails⟩ := h
    cases i with
    | stateRead _ | stateWrite _ => simp [reportedCodes, errorValue]
    | _ => exact hfails.elim

end

/-! ### The statements -/

/-- Settles O13: a command's error leaves nothing of its rule, and a word that is no command is refused at once. -/
theorem rollback : Obligations.Rollback := by
  refine ⟨fun i s t h he => exec_rollback h he, fun w s t h he => ?_⟩
  obtain ⟨i, -, hi⟩ | rfl := runCommand_cases h
  · exact exec_rollback hi he
  · rfl

/-- Settles O14: no command has a cause for a code that is not on its list. -/
theorem errorCodes : Obligations.ErrorCodes := by
  refine ⟨fun i s t h => ⟨?_, exec_rollback h⟩, fun w e s h => runCommand_of_decode_error h s⟩
  obtain ⟨he, -⟩ | ⟨p, he, -⟩ := exec_status h
  · rw [he]
    cases i <;> exact List.mem_cons_self
  · rw [he]
    exact errorValue_mem_reportedCodes ((exec_err_iff h).1 he)

/-- Settles O19: check 7a, the only one that answers code 4. -/
theorem unseededExactly : Obligations.UnseededExactly := by
  refine fun i s => ⟨fun k hwf hk hv => exec_unseeded hk hwf hv, fun t h he => ?_⟩
  have cause : RefusedFor s i .unseeded := (exec_err_iff h).1 he
  exact cause.2

/-- Settles O20: the capability checks, the only ones that answer code 2. -/
theorem unsupportedExactly : Obligations.UnsupportedExactly := by
  refine fun i s => ⟨fun hwf hseeded hcase => ?_, fun t h he => ?_⟩
  · refine exec_of_refusedFor (p := .unsupportedOperation) ?_ ⟨hwf, not_unseededCase_iff.2 hseeded, hcase⟩
    rintro var k rfl
    exact hcase
  · have cause : RefusedFor s i .unsupportedOperation := (exec_err_iff h).1 he
    exact cause.2.2

/-- Settles O21: the two rules of a seed and the empty key, the only checks that answer code 1. -/
theorem invalidSeedExactly : Obligations.InvalidSeedExactly :=
  fun _ _ _ h => exec_err_iff (p := .invalidSeed) h

/-- A seeded instance that the block has holds its engine. -/
theorem holds_engine {s : State} {k : BitVec 4} (hk : k.toNat < s.ninst) (hv : (s.inst k).valid = true) :
    s.holds k (s.inst k).engine := ⟨hk, by rw [← hv]⟩

/-- STATE_WRITE with an index or a value out of range (R179, R487). -/
theorem exec_stateWrite_illegal {s : State} {k : BitVec 4} {e : Engine} (h : s.holds k e)
    (hout : stateWords (engineVariant e) ≤ (s.opnd 0).toNat ∨
      legalValue (engineVariant e) (s.opnd 0).toNat (s.opnd 1) = false) :
    exec (.stateWrite k) s = .next (s.refusedAs 6) := by
  simp only [exec, execStateWrite, stateWriteBody, engineOf_of_holds h, bind_ok, writeStateVector_eq_none hout]
  rfl

/-- Settles O22: the check of the index and the value, the only one that answers code 6. -/
theorem stateAccessExactly : Obligations.StateAccessExactly := by
  refine ⟨fun s k e h => exec_stateRead_outside h, fun s k e h => exec_stateWrite_illegal h, fun c s t h he => ?_⟩
  have cause : RefusedFor s c .invalidStateAccess := (exec_err_iff h).1 he
  obtain ⟨hwf, hseeded, hfails⟩ := cause
  have holds : ∀ {k}, instInRange s.ninst k = true → neededInst c = some k → s.holds k (s.inst k).engine :=
    fun hk hc => holds_engine (of_decide_eq_true hk) (not_unseededCase_iff.1 hseeded _ hc)
  cases c with
  | stateRead k => exact ⟨k, _, holds hwf rfl, .inl ⟨rfl, hfails⟩⟩
  | stateWrite k => exact ⟨k, _, holds hwf rfl, .inr ⟨rfl, hfails⟩⟩
  | _ => exact hfails.elim

end Sys2Proof.Machine
end

section
/-!
SUPPORT. IllegalCommand on the bits of the word (60_exceptions.md R486).
-/

namespace Sys2Proof.Machine

/-- The codes that name a variant are those of the table of R131. -/
theorem varAssigned_iff (c : BitVec 6) : varAssigned c = true ↔ c ∈ assignedCodes := by
  have codes : assignedCodes = allVariants.map variantCode := rfl
  simp only [varAssigned, variantOfCode?, List.find?_isSome, codes, List.mem_map, decide_eq_true_eq]

/-- Every command has a row of the opcode table. -/
theorem exists_row (i : Instr) : ∃ row ∈ opcodeRows, row.op = opcodeOf i := by
  cases i <;> simp [opcodeRows, opcodeOf]

/-- The range checks on the bits of a command's word: INST, CLONE's DST, and the VAR of a seeding command (R124, R133). -/
theorem wellFormed_eq_false_iff (n : Nat) (i : Instr) : i.wellFormed n = false ↔
    (fieldOp (encode i) ≠ 0 ∧ n ≤ (fieldInst (encode i)).toNat) ∨
      (fieldOp (encode i) = 0x18 ∧ n ≤ (fieldDst (encode i)).toNat) ∨
      (fieldOp (encode i) ∈ ([1, 2, 3, 4] : List (BitVec 6)) ∧ fieldVar (encode i) ∉ assignedCodes) := by
  cases i <;> simp [Instr.wellFormed, encode, opcodeOf, instInRange, ← varAssigned_iff, Bool.and_eq_false_iff,
    -Bool.and_eq_false_imp]

/-- A word is one of R486's five cases exactly when it is no command in range: the first three are the decoder's checks,
the last two the range checks. -/
theorem illegalWord_iff {n : Nat} {w : Word} : IllegalWord n w ↔ ∀ i, decode w = .ok i → i.wellFormed n = false := by
  constructor
  · intro illegal i hi
    obtain ⟨row, hrow, hop⟩ := exists_row i
    have matched := (decode_iff_matches_row hrow w).1 ⟨i, hi, hop.symm⟩
    obtain ⟨reserved, op, -⟩ := (matches_row_iff hrow).1 matched
    rw [wellFormed_eq_false_iff, decode_eq_ok_iff_encode.1 hi]
    obtain h | h | ⟨row', hrow', hop', h⟩ | h := illegal
    · exact absurd reserved h
    · exact absurd op.symm (h row hrow)
    · refine absurd ((decode_iff_matches_row hrow' w).1 ⟨i, hi, ?_⟩) h
      exact hop.symm.trans (op.symm.trans hop'.symm)
    · exact h
  · intro outOfRange
    by_cases reserved : fieldReserved w = 0
    case neg => exact .inl reserved
    by_cases assigned : ∃ row ∈ opcodeRows, row.op = fieldOp w
    case neg => exact .inr (.inl fun row hrow hop => assigned ⟨row, hrow, hop⟩)
    obtain ⟨row, hrow, hop⟩ := assigned
    by_cases matched : w &&& row.mask = row.bits
    case neg => exact .inr (.inr (.inl ⟨row, hrow, hop, matched⟩))
    obtain ⟨i, hi, -⟩ := (decode_iff_matches_row hrow w).2 matched
    have fields := (wellFormed_eq_false_iff n i).1 (outOfRange i hi)
    rw [decode_eq_ok_iff_encode.1 hi] at fields
    exact .inr (.inr (.inr fields))

/-- Settles O4: a word is decoded and in range, or one of the five cases stops it before any engine is looked at. -/
theorem illegalCommandExactly : Obligations.IllegalCommandExactly := by
  intro s w
  rw [illegalWord_iff]
  cases hw : decode w with
  | error e => exact ⟨fun _ => runCommand_of_decode_error hw s, fun t _ _ i hi => by cases hi⟩
  | ok i =>
    rw [runCommand_of_decode hw]
    refine ⟨fun outOfRange => exec_illFormed (outOfRange i rfl), fun t h he j hj => ?_⟩
    cases hj
    have cause : RefusedFor s i .illegalCommand := (exec_err_iff h).1 he
    exact cause

end Sys2Proof.Machine
end

section
/-!
SUPPORT. The reset input (70_reset_and_hazards.md R520).
-/

namespace Sys2Proof.Machine

/-- No instance of a block that has been reset is valid (R80). -/
theorem resetBlock_inst (s : State) (i : BitVec 4) : s.resetBlock.inst i = Inst.unseeded :=
  resetWith_inst s.params s.ninst i

/-- Settles O10: the reset input is served, in the idle block and, early, before the running command completes. -/
theorem resetInput : Obligations.ResetInput := by
  intro s early rest hinbox hlands
  have served : step s = .next (State.resetBlock { s with inbox := rest }) := by
    cases hrun : s.running with
    | none => exact step_idle hrun hinbox
    | some w =>
      obtain rfl : early = true := hlands.resolve_left (by simp [hrun])
      exact step_landing hrun hinbox rfl
  exact ⟨_, served, rfl, rfl, rfl, rfl, fun i => congrArg Inst.valid (resetBlock_inst _ i), fun _ => rfl, fun _ => rfl,
    rfl, State.resetBlock_ninst _, rfl, rfl⟩

end Sys2Proof.Machine
end

section
/-!
SUPPORT. NEXT32 on PCG32 and NEXT on PCG64 (44_pcg.md R302, R305, R306): the outputs, with the library's rotate.
-/

namespace Sys2Proof.Machine

/-- The rotate to the right of R10 is the library's. -/
theorem rotr_eq_rotateRight {w : Nat} (x : BitVec w) {k : Nat} (h : k < w) : rotr x k = x.rotateRight k := by
  obtain rfl | hk := Nat.eq_zero_or_pos k
  · simp [rotr, rotl, BitVec.rotateRight_def]
  · have complement : (w - k) % w = w - k := Nat.mod_eq_of_lt (by omega)
    rw [rotr, complement, rotl, if_neg (by omega), Nat.sub_sub_self h.le, BitVec.rotateRight_def, Nat.mod_eq_of_lt h,
      BitVec.or_comm]

/-- The top m bits of a word, read as a number: a rotate count in range (R302, R305). -/
theorem ushiftRight_toNat_lt {w n m : Nat} (x : BitVec w) (h : w ≤ n + m) : (x >>> n).toNat < 2 ^ m := by
  rw [BitVec.toNat_ushiftRight, Nat.shiftRight_eq_div_pow]
  exact Nat.div_lt_of_lt_mul (x.isLt.trans_le ((Nat.pow_le_pow_right Nat.two_pos h).trans_eq (Nat.pow_add ..)))

/-- R302: the XSH-RR output by the library's rotate. -/
theorem pcg32Out_eq (st : Word) : pcg32Out st =
    (((st >>> 18 ^^^ st) >>> 27).setWidth 32 : Word32).rotateRight (st >>> 59).toNat :=
  rotr_eq_rotateRight _ (ushiftRight_toNat_lt (m := 5) st (by decide))

/-- R305: the XSL-RR output by the halves of the state and the library's rotate. -/
theorem pcg64Out_eq (st : Word128) : pcg64Out st =
    (st.extractLsb' 64 64 ^^^ st.extractLsb' 0 64).rotateRight (st >>> 122).toNat := by
  rw [← rotr_eq_rotateRight _ (ushiftRight_toNat_lt (m := 6) st (by decide)),
    ← BitVec.setWidth_eq_extractLsb' (by decide)]
  rfl

/-- Settles O39: the output of PCG32 is that of the state before the step, the output of PCG64 that of the state after
it (R306). -/
theorem pcgNext : Obligations.PcgNext := by
  refine ⟨fun s i st inc h => ?_, fun s i st inc h => ?_⟩
  · intro xs
    rw [exec_next32_of_holds h rfl, nextNative, pcg32Next, pcg32Out_eq]
    rfl
  · intro st'
    exact exec_next_of_nextNative h rfl (pcg64Out_eq st') rfl

end Sys2Proof.Machine
end

section
/-!
SUPPORT. The period of the LCG step (44_pcg.md R311, R312): with an odd multiplier `2 ^ w` steps change no state, so
advances add up modulo `2 ^ w`.
-/

namespace Sys2Proof.Machine

/-- An affine map of odd multiplier, applied `2 ^ k` times, is the identity modulo `2 ^ k`: to apply it twice as often
multiplies both its multiplier's distance from 1 and its summand by an even number. -/
theorem affine_iterate_two_pow {w : Nat} {m : BitVec w} (hm : Odd m) (p : BitVec w) (k : Nat) :
    ∃ a b, (affine m p)^[2 ^ k] = affine a b ∧ Odd a ∧ 2 ^ k ∣ a - 1 ∧ 2 ^ k ∣ b := by
  induction k with
  | zero =>
    rw [pow_zero]
    exact ⟨m, p, rfl, hm, one_dvd _, one_dvd _⟩
  | succ k ih =>
    obtain ⟨a, b, iterate, odd, ha, hb⟩ := ih
    have even : 2 ∣ a + 1 := (odd.add_odd odd_one).two_dvd
    have square : a * a - 1 = (a - 1) * (a + 1) := by ring
    refine ⟨a * a, (a + 1) * b, ?_, odd.mul odd, ?_, ?_⟩
    · rw [Nat.pow_succ, Function.iterate_mul, iterate, affine_twice]
    · rw [square, pow_succ]
      exact mul_dvd_mul ha even
    · rw [mul_comm, pow_succ]
      exact mul_dvd_mul hb even

/-- `2 ^ w` is 0 in words of w bits. -/
theorem two_pow_width_eq_zero (w : Nat) : (2 : BitVec w) ^ w = 0 := by
  refine BitVec.eq_of_toNat_eq ?_
  have two : (2 : BitVec w).toNat = 2 % 2 ^ w := rfl
  rw [BitVec.toNat_pow, two, ← Nat.pow_mod, Nat.mod_self]
  exact BitVec.toNat_zero.symm

/-- `2 ^ w` steps change no state, for every inc and every odd multiplier (R311). -/
theorem lcgStep_isPeriodicPt {w : Nat} {mult : BitVec w} (hm : Odd mult) (g : Lcg w) :
    Function.IsPeriodicPt (lcgStep mult) (2 ^ w) g := by
  obtain ⟨a, b, iterate, -, ha, hb⟩ := affine_iterate_two_pow hm g.inc w
  rw [two_pow_width_eq_zero, zero_dvd_iff] at ha hb
  rw [Function.IsPeriodicPt, Function.IsFixedPt, lcgStep_iterate, iterate, sub_eq_zero.1 ha, hb]
  simp [affine]

/-- An advance by 0 changes nothing (R311). -/
theorem lcgAdvance_zero {w : Nat} (mult : BitVec w) (g : Lcg w) : lcgAdvance mult 0 g = g := by
  have noSteps : (0 : BitVec w).toNat = 0 := BitVec.toNat_zero
  rw [lcgAdvance_eq_iterate, noSteps, Function.iterate_zero_apply]

section
variable {w : Nat} {mult : BitVec w} (hm : Odd mult)
include hm

/-- A number of steps counts modulo `2 ^ w` (R311). -/
theorem lcgAdvance_ofNat (n : Nat) (g : Lcg w) : lcgAdvance mult (BitVec.ofNat w n) g = (lcgStep mult)^[n] g := by
  rw [lcgAdvance_eq_iterate, BitVec.toNat_ofNat, (lcgStep_isPeriodicPt hm g).iterate_mod_apply]

/-- Advances add up modulo `2 ^ w` (R311). -/
theorem lcgAdvance_lcgAdvance (a b : BitVec w) (g : Lcg w) :
    lcgAdvance mult b (lcgAdvance mult a g) = lcgAdvance mult (a + b) g := by
  have sum : a + b = BitVec.ofNat w (b.toNat + a.toNat) := by
    simp [BitVec.ofNat_add, BitVec.add_comm]
  rw [sum, lcgAdvance_ofNat hm, Function.iterate_add_apply, ← lcgAdvance_eq_iterate, ← lcgAdvance_eq_iterate]

/-- An advance by `2 ^ w - a` undoes `a` steps (R311). -/
theorem lcgAdvance_sub_lcgStep (a : BitVec w) (g : Lcg w) :
    lcgAdvance mult (0 - a) ((lcgStep mult)^[a.toNat] g) = g := by
  rw [← lcgAdvance_eq_iterate, lcgAdvance_lcgAdvance hm, add_sub_cancel, lcgAdvance_zero]

/-- `k` advances by `d` are one by `k * d` (R312). -/
theorem lcgAdvance_iterate (k : Nat) (d : BitVec w) (g : Lcg w) :
    (lcgAdvance mult d)^[k] g = lcgAdvance mult (BitVec.ofNat w k * d) g := by
  induction k with
  | zero =>
    rw [BitVec.zero_mul]
    exact (lcgAdvance_zero mult g).symm
  | succ k ih =>
    have product : BitVec.ofNat w (k + 1) * d = BitVec.ofNat w k * d + d := by
      rw [BitVec.ofNat_add, BitVec.add_mul, BitVec.one_mul]
    rw [Function.iterate_succ_apply', ih, lcgAdvance_lcgAdvance hm, product]

end

/-- Settles O49: both multipliers are odd, so that an advance counts steps modulo `2 ^ w`. -/
theorem pcgJumpsAddUp : Obligations.PcgJumpsAddUp := by
  have odd32 : Odd pcgMult32 := ⟨pcgMult32 / 2, by decide⟩
  have odd64 : Odd pcgMult64 := ⟨pcgMult64 / 2, by decide⟩
  exact ⟨⟨fun g a b => ⟨lcgAdvance_zero _ g, lcgAdvance_lcgAdvance odd32 a b g, lcgAdvance_sub_lcgStep odd32 a g⟩,
    fun g a b => ⟨lcgAdvance_zero _ g, lcgAdvance_lcgAdvance odd64 a b g, lcgAdvance_sub_lcgStep odd64 a g⟩⟩,
    fun s i g h => exec_jumps_of_holds h rfl rfl, fun s i g h => exec_jumps_of_holds h rfl rfl,
    fun k g d => lcgAdvance_iterate odd32 k d g, fun k g d => lcgAdvance_iterate odd64 k d g⟩

end Sys2Proof.Machine
end
